-- ==== Sys2Proof/Word.lean ====
section
/-! DEFINITION. The word types of the block: bytes, 32-bit words, packets (rules R6, R14, R16, R55).
Bit 0 of a word is its least significant bit, as R14 numbers them and as BitVec does. -/

namespace Sys2Proof

/-- An unsigned integer 0 to 255 (R16). -/
abbrev Byte := BitVec 8

/-- A 32-bit unsigned integer (R6, R14). -/
abbrev Word := BitVec 32

/-- A packet is a finite byte string, possibly empty, delivered whole, byte 0 first (R55). Its
length is the list's length: the channel delivers it with the packet. -/
abbrev Packet := List Byte

end Sys2Proof
end

