-- ==== Sys2Proof/Config.lean ====
section
/-! DEFINITION. The parameters of the block (rules R6 to R11): what the hardware fixes, with the
values the rules state, and the one value the spec leaves open, the digest, which has no body here.

`MAX_SEED_LEN` (R13) is unbounded and has no field: a seed is a list of bytes of any length. -/

namespace Sys2Proof

/-- `XOR_SCOPE` (R11): on which Collatz branches step 2 XORs with `XOR_CONST`. -/
inductive XorScope where
  /-- The odd branch only: the value R11 states and every rule uses. -/
  | oddOnly
  /-- Both branches: the named alternative of R11, kept so that its vectors can be run. -/
  | both
  deriving DecidableEq, Repr

/-- The parameters that have a value (93_implementation_defined.md U3 to U5 asks for them as
configuration fields and not as facts about the original repository). -/
structure Params where
  /-- `XOR_CONST` (R7). -/
  xorConst : Word
  /-- `ROT_MASK` (R7). -/
  rotMask : Word
  /-- The Collatz multiplier (R7). -/
  collatzMul : Nat
  /-- The Collatz increment (R7). -/
  collatzInc : Nat
  /-- `WARMUP_ROUNDS` (R6). -/
  warmupRounds : Nat
  /-- `C_INIT` (R10): the counter before the warm-up. -/
  cInit : Word
  /-- `XOR_SCOPE` (R11). -/
  xorScope : XorScope
  deriving DecidableEq, Repr

/-- The values this hardware takes. R6 and R7 fix the first five; R10 and R11 are the spec's own
choices where its source is silent (UNVERIFIED against the original repository: log entries 6, 7, 8). -/
def Config.params : Params where
  xorConst := 0xA5A5A5A5#32
  rotMask := 0x1F#32
  collatzMul := 3
  collatzInc := 1
  warmupRounds := 128
  cInit := 0x00000000#32
  xorScope := .oddOnly

/-- `DIGEST : ByteString -> Byte[32]` (R8): total and deterministic, otherwise nothing is known of
it. It has no body, so that whatever is proved holds for every digest (UNVERIFIED which one a chip has: log entry 4). -/
opaque Config.digest : List Byte → Vector Byte 32

end Sys2Proof
end

