-- ==== Sys2Proof/Syntax.lean ====
section
/-! DEFINITION. The commands of the block, one constructor per row of spec/opcode_table.json, and
the pseudo-instructions of rule R72. -/

namespace Sys2Proof

/-- A command with its operands, as R55 and R66 name them. `d` and `p` are FLAGS bits 0 and 1 (R61). -/
inductive Instr where
  /-- INIT (R86): construct the generator from a seed of any length. -/
  | init (d p : Bool) (seed : List Byte)
  /-- LOAD (R87): construct the generator from four words, skipping the digest. -/
  | load (d p : Bool) (w0 w1 w2 w3 : Word)
  /-- STEP (R115): advance by one round and return the output word. -/
  | step
  /-- READ (R117): return the state words and the counter. -/
  | read
  deriving DecidableEq, Repr

/-- The pseudo-instructions (R72); one has no encoding of its own. -/
inductive Pseudo where
  /-- `NEW seed`: the source's `Generator::new(seed)`. -/
  | new (seed : List Byte)
  /-- `STEPN k`. -/
  | stepN (k : Nat)
  /-- `STATE seed`: the source's `init(seed) -> GeneratorState`. -/
  | state (seed : List Byte)
  deriving DecidableEq, Repr

end Sys2Proof
end

