-- ==== Sys2Proof/WellFormed.lean ====
section
/-! DEFINITION. Which packets are legal, read from the table of rule R65 (opcode, length, reserved
FLAGS bits) and not from the decoder, so that the two can be compared; and which commands are. -/

namespace Sys2Proof

/-- R61, R68: FLAGS bits 7 to 2 must be 0. The conjunction with `0xFC` is R65's own test. -/
def flagsLegal (fl : Byte) : Bool := fl &&& 0xFC#8 == 0#8

/-- R65: the conditions for a legal packet, row by row, on byte 0, the length and byte 1. -/
def packetLegal (p : Packet) : Bool :=
  match p[0]? with
  | none => false
  | some op =>
    (op == 0x01#8 && decide (2 ≤ p.length) && flagsLegal (p.getD 1 0)) ||
    (op == 0x02#8 && p.length == 18 && flagsLegal (p.getD 1 0)) ||
    (op == 0x03#8 && p.length == 1) ||
    (op == 0x04#8 && p.length == 1)

/-- Every term of `Instr` is a legal command: a seed may be any byte string (R13, R57), a word
operand any value (R62), and either option bit any value (R26: "there is no illegal combination").
What can be ill-formed is a packet, not a decoded command. -/
def Instr.wellFormed : Instr → Bool
  | .init _ _ _ => true
  | .load _ _ _ _ _ _ => true
  | .step => true
  | .read => true

end Sys2Proof
end

