-- ==== Sys2Proof/Decode.lean ====
section
/-! DEFINITION. Byte order, the decoder of rule R66 and the encoder of rule R71. -/

namespace Sys2Proof

/-! ### Byte order -/

/-- `be32` (R16, R43): the first byte is the most significant. -/
def be32 (b0 b1 b2 b3 : Byte) : Word :=
  BitVec.ofNat 32 (b0.toNat * 2 ^ 24 + b1.toNat * 2 ^ 16 + b2.toNat * 2 ^ 8 + b3.toNat)

/-- `bytes_be32` (R16): `w[31:24], w[23:16], w[15:8], w[7:0]`. -/
def bytesBe32 (w : Word) : List Byte :=
  [w.extractLsb' 24 8, w.extractLsb' 16 8, w.extractLsb' 8 8, w.extractLsb' 0 8]

/-! ### The decoder -/

/-- Why a packet is illegal (R67). The block answers every one of them with `E_ILLEGAL`. -/
inductive Illegal where
  /-- The empty packet. -/
  | emptyPacket
  /-- A first byte of `0x00` or `0x05` to `0xFF`. -/
  | unassignedOpcode (op : Byte)
  /-- An INIT of length 1. -/
  | initWithoutFlags
  /-- A LOAD whose length is not 18. -/
  | loadLength
  /-- A STEP or READ whose length is not 1. -/
  | trailingBytes
  /-- An INIT or LOAD with a reserved FLAGS bit set (R68). -/
  | reservedFlags (fl : Byte)
  deriving DecidableEq, Repr

/-- FLAGS bit 0 (R61). -/
def flagD (fl : Byte) : Bool := fl.getLsbD 0

/-- FLAGS bit 1 (R61). -/
def flagP (fl : Byte) : Bool := fl.getLsbD 1

/-- One big-endian word operand from the front of a byte string (R62). -/
def takeWord : List Byte → Option (Word × List Byte)
  | b0 :: b1 :: b2 :: b3 :: rest => some (be32 b0 b1 b2 b3, rest)
  | _ => none

/-- The four word operands of LOAD, with nothing left over: packet bytes 2 to 17 (R58, R62). -/
def takeWords4 (bs : List Byte) : Option (Word × Word × Word × Word) :=
  match takeWord bs with
  | none => none
  | some (w0, bs1) =>
    match takeWord bs1 with
    | none => none
    | some (w1, bs2) =>
      match takeWord bs2 with
      | none => none
      | some (w2, bs3) =>
        match takeWord bs3 with
        | some (w3, []) => some (w0, w1, w2, w3)
        | _ => none

/-- R66, opcode `0x01`, on the bytes after the opcode (format KS-V, R57). -/
def decodeInit : List Byte → Except Illegal Instr
  | [] => .error .initWithoutFlags
  | fl :: seed =>
    if flagsLegal fl then .ok (.init (flagD fl) (flagP fl) seed) else .error (.reservedFlags fl)

/-- R66, opcode `0x02`, on the bytes after the opcode (format KS-W, R58): length first, then FLAGS. -/
def decodeLoad : List Byte → Except Illegal Instr
  | [] => .error .loadLength
  | fl :: operands =>
    match takeWords4 operands with
    | none => .error .loadLength
    | some (w0, w1, w2, w3) =>
      if flagsLegal fl then .ok (.load (flagD fl) (flagP fl) w0 w1 w2 w3)
      else .error (.reservedFlags fl)

/-- R66, opcodes `0x03` and `0x04`, on the bytes after the opcode (format SE-0, R59). -/
def decodeBare (i : Instr) : List Byte → Except Illegal Instr
  | [] => .ok i
  | _ :: _ => .error .trailingBytes

/-- The decoding function of R66, total on every byte string. It reads no state. -/
def decode : Packet → Except Illegal Instr
  | [] => .error .emptyPacket
  | op :: operands =>
    if op = 0x01#8 then decodeInit operands
    else if op = 0x02#8 then decodeLoad operands
    else if op = 0x03#8 then decodeBare .step operands
    else if op = 0x04#8 then decodeBare .read operands
    else .error (.unassignedOpcode op)

/-! ### The encoder -/

/-- The FLAGS byte (R61): bit 0 is `d`, bit 1 is `p`, bits 7 to 2 are 0. -/
def flagsByte (d p : Bool) : Byte := BitVec.ofNat 8 (d.toNat + 2 * p.toNat)

/-- The packet of a command (R57 to R59; R71 "Encoding of a line"). -/
def encode : Instr → Packet
  | .init d p seed => 0x01#8 :: flagsByte d p :: seed
  | .load d p w0 w1 w2 w3 =>
    0x02#8 :: flagsByte d p :: (bytesBe32 w0 ++ bytesBe32 w1 ++ bytesBe32 w2 ++ bytesBe32 w3)
  | .step => [0x03#8]
  | .read => [0x04#8]

/-- The commands a pseudo-instruction stands for (R72). -/
def expandPseudo : Pseudo → List Instr
  | .new seed => [.init false false seed]
  | .stepN k => List.replicate k .step
  | .state seed => [.init false false seed, .read]

/-! ### Packets as the opcode table numbers their bits -/

/-- The `n` bytes of `w`, least significant first. That order is the model's choice (DESIGN CHOICE: log
entry 11): R65's table gives 8-bit patterns of the first byte only, so the spec numbers no bits past
it. R43's big-endian order is of the quantities a packet carries, and `decode` keeps it. -/
def tableBytes : Nat → Nat → List Byte
  | 0, _ => []
  | n + 1, w => BitVec.ofNat 8 w :: tableBytes n (w / 256)

/-- The least length of a legal packet with this first byte (R56): what the bytes the table gives
are filled up to, with zeros. An INIT is filled up to its empty seed (DESIGN CHOICE: log entry 11). -/
def leastLength (op : Byte) : Nat :=
  if op = 0x01#8 then 2 else if op = 0x02#8 then 18 else 1

/-- The packet whose first `nbits` bits, rounded up to whole bytes, are those of `w`, and whose
other bytes, up to the least length of its opcode, are 0 (DESIGN CHOICE, both the order of the bytes of
`w` and the zeros: log entry 11). -/
def tablePacket (nbits w : Nat) : Packet :=
  match tableBytes ((nbits + 7) / 8) w with
  | [] => []
  | op :: rest => op :: (rest ++ List.replicate (leastLength op - 1 - rest.length) 0#8)

/-- The command the decoder reads from the packet whose bits, numbered as the table numbers them,
are `w`; `none` where the packet is illegal. -/
def decodeTableWord (nbits w : Nat) : Option Instr :=
  match decode (tablePacket nbits w) with
  | .ok i => some i
  | .error _ => none

end Sys2Proof
end

