-- ==== Sys2Proof/Machine/State.lean ====
section
/-! DEFINITION. The state of one instance of the block: the eight fields of rule R20 and the two
channels of rule R41; the state after reset (R30, R156); the ways a step can stop. -/

namespace Sys2Proof.Machine

/-- The GeneratorState (R20): four state words and the round counter, 160 bits. -/
structure GeneratorState where
  /-- State word `s0` (R21). -/
  s0 : Word
  /-- State word `s1` (R21). -/
  s1 : Word
  /-- State word `s2` (R21). -/
  s2 : Word
  /-- State word `s3` (R21); after a STEP it is that STEP's output word (R23). -/
  s3 : Word
  /-- The round counter `c` (R25). -/
  c : Word
  deriving DecidableEq, Repr

/-- The configuration register `CFG` (R26). -/
structure Cfg where
  /-- `CFG.D`: false = `input_mixing` xor_mixed, true = direct. -/
  d : Bool
  /-- `CFG.P`: false = `shift_feedback` xor_feedback, true = plain. -/
  p : Bool
  deriving DecidableEq, Repr

/-- Something the host has done that the block has not yet taken (R155). -/
inductive HostEvent where
  /-- A whole command packet on the command channel (R41, R55). -/
  | packet (bytes : Packet)
  /-- The reset event (R156): it has no packet and no response. -/
  | reset
  deriving DecidableEq, Repr

/-- The error statuses (R63, R133). -/
inductive ErrorCode where
  /-- `E_ILLEGAL`: the packet does not decode (R131). -/
  | illegal
  /-- `E_NOTSEEDED`: STEP or READ while `SEEDED = 0` (R132). -/
  | notSeeded
  deriving DecidableEq, Repr

/-- One instance of the block (R20, R41). -/
structure State where
  /-- `s0..s3` and `c`. While `SEEDED = 0` they hold no value: R29 asks for exactly this absence,
  and for no zero or other value, so `none` is the spec's own state (DEDUCED form: log entry 1). -/
  gen : Option GeneratorState
  /-- `CFG.D` and `CFG.P` (R26). -/
  cfg : Cfg
  /-- `SEEDED` (R27). -/
  seeded : Bool
  /-- The command channel and the reset event: what the host has done and the block has not yet
  taken, in the order it takes them (R41, R46, R155). -/
  inbox : List HostEvent
  /-- The response channel: response packets the host has not yet taken, oldest first (R41, R46). -/
  outbox : List Packet
  deriving DecidableEq, Repr

/-- The reset state (R30, R156): `SEEDED = 0`, `CFG = 0`, the words and the counter hold no value.
The channels are empty (DESIGN CHOICE: log entry 2). -/
def State.reset : State where
  gen := none
  cfg := { d := false, p := false }
  seeded := false
  inbox := []
  outbox := []

/-- The faults of the block: none. R18: "There is no third outcome"; 93_implementation_defined.md
section 2: "Nothing in the block is treated as `fault` in the sense of a trap, and nothing as
`stuck`". The two error statuses are responses after which the block goes on (R137). -/
inductive Fault where
  deriving DecidableEq, Repr

/-- The refusals of the model. -/
inductive Refusal where
  /-- Raised by an arm of `exec` whose command has no meaning yet; safe. No arm of this model
  raises it: all four commands have their meaning. -/
  | notModelled (mnemonic : String)
  deriving DecidableEq, Repr

end Sys2Proof.Machine
end

