-- ==== Sys2Proof/Machine/Ops.lean ====
section
/-! DEFINITION. The named operations over the state: writing registers, responding, taking what the
host has done, and what the host can do. Every response goes through `State.respond`, and both error
statuses through `respondErr`, the block's one form of "taking an exception". -/

namespace Sys2Proof.Machine

/-! ### Writing the registers -/

/-- `s[0..3] <- ...; c <- ...`, simultaneously (R17, R83, R107). -/
def State.setGen (g : GeneratorState) (s : State) : State := { s with gen := some g }

/-- `CFG.D <- d; CFG.P <- p` (R26, R83). -/
def State.setCfg (cfg : Cfg) (s : State) : State := { s with cfg := cfg }

/-! ### Responses (R63, R64) -/

/-- Send one response packet, after those sent before it (R46). The channel takes any number of them
(DESIGN CHOICE: log entry 9). -/
def State.respond (r : Packet) (s : State) : State := { s with outbox := s.outbox ++ [r] }

/-- The STATUS byte of an OK response (R63). -/
def statusOk : Byte := 0x00#8

/-- The STATUS byte of an error response (R63, R131, R132). -/
def errorStatus : ErrorCode → Byte
  | .illegal => 0x01#8
  | .notSeeded => 0x02#8

/-- `respond OK(payload)` (R18, R63). -/
def respondOk (payload : List Byte) (s : State) : State := s.respond (statusOk :: payload)

/-- `respond ERR(code)` (R18, R136): the one-byte error response and nothing else. No state is
saved, no mode changes and control goes nowhere; so there is nothing to return from, and R137 gives
no operation to stand beside this one. -/
def respondErr (code : ErrorCode) (s : State) : State := s.respond [errorStatus code]

/-- The READ-format payload: `s0 s1 s2 s3 c`, each big-endian, 20 bytes (R64, R118). -/
def generatorBytes (g : GeneratorState) : List Byte :=
  bytesBe32 g.s0 ++ bytesBe32 g.s1 ++ bytesBe32 g.s2 ++ bytesBe32 g.s3 ++ bytesBe32 g.c

/-! ### What the block takes from the host -/

/-- The oldest thing the host has done, and the state with it taken (R46). -/
def nextEvent (s : State) : Option (HostEvent × State) :=
  match s.inbox with
  | [] => none
  | e :: rest => some (e, { s with inbox := rest })

/-- The reset event reaches the block (R156). What the host sent after it stays to be taken; what
the block has already answered stays answered (DESIGN CHOICE: log entry 2). -/
def applyReset (s : State) : State :=
  { State.reset with inbox := s.inbox, outbox := s.outbox }

/-- An illegal packet is answered `E_ILLEGAL` and changes no state (R67, R131). -/
def rejectPacket (_why : Illegal) (s : State) : State := respondErr .illegal s

/-! ### What the host can do (R155) -/

/-- The host sends a packet: it comes after all that was sent before (R46). -/
def State.send (p : Packet) (s : State) : State := { s with inbox := s.inbox ++ [.packet p] }

/-- The host asserts reset: packets sent before and not yet answered are dropped, a command in
execution included (R156, R157; DEDUCED: log entry 12); the reset is what the block takes next. -/
def State.assertReset (s : State) : State := { s with inbox := [.reset] }

/-- The host takes the oldest response, if there is one (R155). -/
def State.takeResponse (s : State) : Option (Packet × State) :=
  match s.outbox with
  | [] => none
  | r :: rest => some (r, { s with outbox := rest })

/-- Place a packet so that the block takes it next. -/
def State.present (p : Packet) (s : State) : State := { s with inbox := .packet p :: s.inbox }

end Sys2Proof.Machine
end

