-- ==== Sys2Proof/Machine/Flags.lean ====
section
/-! DEFINITION. The one status flag, `SEEDED` (R27). The block has no other flag (R28): nothing
records a wrapped addition or the Collatz branch taken. -/

namespace Sys2Proof.Machine

/-- `SEEDED <- 1` (R84). -/
def State.setSeeded (s : State) : State := { s with seeded := true }

/-- The test STEP and READ make (R27, R132): the generator when `SEEDED = 1`, and `none` when
`SEEDED = 0`. In a state with `SEEDED = 1` whose words hold no value, which no run reaches, it is
`none` as well (DESIGN CHOICE: log entry 3). -/
def State.seededGen (s : State) : Option GeneratorState := if s.seeded then s.gen else none

end Sys2Proof.Machine
end

