-- ==== Sys2Proof/Machine/Operands.lean ====
section
/-! DEFINITION. The operand forms of the commands once decoded: the FLAGS bits as a configuration,
four word operands as a generator before its warm-up, a seed as four words. The bytes themselves
are read in Decode.lean (R61, R62). -/

namespace Sys2Proof.Machine

/-- The configuration the FLAGS bits `d` and `p` choose (R61). -/
def cfgOfFlags (d p : Bool) : Cfg := { d := d, p := p }

/-- Stage 3, the words (R83): `s[i] <- w_i`, `c <- C_INIT`. -/
def loadedGenerator (P : Params) (w0 w1 w2 w3 : Word) : GeneratorState :=
  { s0 := w0, s1 := w1, s2 := w2, s3 := w3, c := P.cInit }

/-- Stage 2, split (R82), under `DIGEST_SELECT = first4` (R9; UNVERIFIED: log entry 5): digest bytes 0 to 15 as
four big-endian words; bytes 16 to 31 are not used. -/
def splitDigest (dg : Vector Byte 32) : Word × Word × Word × Word :=
  (be32 dg[0] dg[1] dg[2] dg[3], be32 dg[4] dg[5] dg[6] dg[7],
   be32 dg[8] dg[9] dg[10] dg[11], be32 dg[12] dg[13] dg[14] dg[15])

/-- Stages 1 and 2 (R81, R82): the four words a seed gives. -/
def seedWords (seed : List Byte) : Word × Word × Word × Word := splitDigest (Config.digest seed)

end Sys2Proof.Machine
end

