-- ==== Sys2Proof/Machine/Round.lean ====
section
/-! DEFINITION. The arithmetic primitives of rule R15 and the round function of rules R100 to R110,
one definition per step, and its repetition (R84). There is one round function, for STEP and for the
warm-up (R108). `P` is always the parameters; the hardware's are `Config.params`. -/

namespace Sys2Proof.Machine

/-! ### Primitives (R15) -/

/-- `add32(a, b) = mod32(a + b)`: wraps, with no flag. -/
def add32 (a b : Word) : Word := a + b

/-- `mul3p1(a) = mod32(3*a + 1)`, computed on integers and reduced once (R15, D25). -/
def mul3p1 (P : Params) (a : Word) : Word := BitVec.ofNat 32 (P.collatzMul * a.toNat + P.collatzInc)

/-- `shr1(a) = floor(a / 2)`: logical, bit 31 of the result is 0. -/
def shr1 (a : Word) : Word := a >>> 1

/-- `rotl32(a, r)`: bit `i` of `a` moves to bit `(i + r) mod 32`; `r = 0` is the identity. -/
def rotl32 (a : Word) (r : Nat) : Word := a.rotateLeft r

/-! ### The six steps -/

/-- Step 1, pre-mix (R101). -/
def premix (cfg : Cfg) (g : GeneratorState) : Word := if cfg.d then g.s0 else g.s0 ^^^ g.s2

/-- Step 2, the Collatz step (R102): the test is on bit 0 of `mixed`. -/
def collatz (P : Params) (mixed : Word) : Word :=
  if mixed.getLsbD 0 then mul3p1 P mixed ^^^ P.xorConst
  else
    match P.xorScope with
    | .oddOnly => shr1 mixed
    | .both => shr1 mixed ^^^ P.xorConst

/-- Step 3, the rotation amount (R103): `rot = s1 AND 0x1F`. -/
def rotAmount (P : Params) (g : GeneratorState) : Nat := (g.s1 &&& P.rotMask).toNat

/-- Step 4, the counter (R104): incremented before it is used. -/
def nextCounter (g : GeneratorState) : Word := add32 g.c 1#32

/-- Steps 1 to 5: the round output `new` (R101 to R105), from before-values only (R109) but for the
counter, whose incremented value is added (R161). -/
def roundOutput (P : Params) (cfg : Cfg) (g : GeneratorState) : Word :=
  add32 (add32 (rotl32 (collatz P (premix cfg g)) (rotAmount P g)) (nextCounter g)) g.s2 ^^^ g.s3

/-- Step 6, the shift-register update (R106), all from before-values and `new`. -/
def shiftIn (cfg : Cfg) (g : GeneratorState) (new : Word) : GeneratorState :=
  { s0 := if cfg.p then g.s1 else g.s1 ^^^ g.s3
    s1 := g.s2
    s2 := g.s3
    s3 := new
    c := nextCounter g }

/-- `Round` (R108): the state after the round, and the round output. -/
def engineRound (P : Params) (cfg : Cfg) (g : GeneratorState) : GeneratorState × Word :=
  (shiftIn cfg g (roundOutput P cfg g), roundOutput P cfg g)

/-- `n` rounds in succession, outputs discarded (R84). -/
def iterRound (P : Params) (cfg : Cfg) : Nat → GeneratorState → GeneratorState
  | 0, g => g
  | n + 1, g => iterRound P cfg n (engineRound P cfg g).1

end Sys2Proof.Machine
end

