-- ==== Sys2Proof/Machine/KeyScheduler.lean ====
section
/-! DEFINITION. The KeyScheduler: the composite `KS_Load` of rule R85 and the commands INIT (R86)
and LOAD (R87). Each is one transition; the warm-up count is no state (R31). -/

namespace Sys2Proof.Machine

/-- Stages 3 and 4 on the generator (R83, R84): load the words, then `WARMUP_ROUNDS` rounds in the
configuration the command chose. -/
def warmedUp (P : Params) (cfg : Cfg) (w : Word × Word × Word × Word) : GeneratorState :=
  iterRound P cfg P.warmupRounds (loadedGenerator P w.1 w.2.1 w.2.2.1 w.2.2.2)

/-- `KS_Load(d, p, w0, w1, w2, w3)` (R85): writes all eight fields and reads none. -/
def ksLoad (P : Params) (cfg : Cfg) (w : Word × Word × Word × Word) (s : State) : State :=
  ((s.setCfg cfg).setGen (warmedUp P cfg w)).setSeeded

/-- INIT (R86). -/
def execInit (d p : Bool) (seed : List Byte) (s : State) : Host.Outcome State Fault Refusal :=
  .next (respondOk [] (ksLoad Config.params (cfgOfFlags d p) (seedWords seed) s))

/-- LOAD (R87). -/
def execLoad (d p : Bool) (w0 w1 w2 w3 : Word) (s : State) : Host.Outcome State Fault Refusal :=
  .next (respondOk [] (ksLoad Config.params (cfgOfFlags d p) (w0, w1, w2, w3) s))

end Sys2Proof.Machine
end

