-- ==== Sys2Proof/Machine/StateEngine.lean ====
section
/-! DEFINITION. The StateEngine's commands STEP (R115) and READ (R117). -/

namespace Sys2Proof.Machine

/-- STEP (R115): `E_NOTSEEDED` when `SEEDED = 0`; otherwise one round, its output the response. -/
def execStep (s : State) : Host.Outcome State Fault Refusal :=
  match s.seededGen with
  | none => .next (respondErr .notSeeded s)
  | some g =>
    let r := engineRound Config.params s.cfg g
    .next (respondOk (bytesBe32 r.2) (s.setGen r.1))

/-- READ (R117): `E_NOTSEEDED` when `SEEDED = 0`; otherwise the words and the counter, nothing
written. -/
def execRead (s : State) : Host.Outcome State Fault Refusal :=
  match s.seededGen with
  | none => .next (respondErr .notSeeded s)
  | some g => .next (respondOk (generatorBytes g) s)

end Sys2Proof.Machine
end

