-- ==== Sys2Proof/Machine/Dispatch.lean ====
section
/-! DEFINITION. What each command does to the state, one arm per constructor of `Instr`. -/

namespace Sys2Proof.Machine

def exec (i : Instr) (s : State) : Host.Outcome State Fault Refusal :=
  match i with
  | .init d p seed => Sys2Proof.Machine.execInit d p seed s
  | .load d p w0 w1 w2 w3 => Sys2Proof.Machine.execLoad d p w0 w1 w2 w3 s
  | .step => Sys2Proof.Machine.execStep s
  | .read => Sys2Proof.Machine.execRead s

end Sys2Proof.Machine
end

