-- ==== Sys2Proof/Machine/Step.lean ====
section
/-! DEFINITION. One step of the block: take the oldest thing the host has done, and act on it. -/

namespace Sys2Proof.Machine

/-- The block takes the next packet and executes it, or takes a reset; with nothing to take it is
idle and holds its state (R24, R46, R134, R143, R172; DEDUCED: log entry 14). -/
def step (s : State) : Host.Outcome State Fault Refusal :=
  match nextEvent s with
  | none => .next s
  | some (.reset, s') => .next (applyReset s')
  | some (.packet p, s') =>
    match decode p with
    | .error why => .next (rejectPacket why s')
    | .ok i => exec i s'

/-- `s` with the packet of the table's word `w` where `step` takes its next packet (DESIGN CHOICE: log entry 11). -/
def State.withFetchWord (s : State) (nbits w : Nat) : State := s.present (tablePacket nbits w)

end Sys2Proof.Machine
end

