-- ==== Sys2Proof/Machine/Assembler.lean ====
section
/-! DEFINITION. The textual form of a command (rule R71) and of the pseudo-instructions (R72): from
one line of text to the commands it stands for, and a printer. No rule of the machine depends on
this file. R71 does not say where spaces may stand or whether hex digits may be lower case; the
choices are log entry 10 (DESIGN CHOICE). -/

namespace Sys2Proof

/-! ### Pieces of text -/

/-- Spaces and tabs may stand between the parts of a line (log entry 10). -/
def skipBlanks : List Char → List Char
  | [] => []
  | ch :: rest => if ch.toNat = 0x20 ∨ ch.toNat = 0x09 then skipBlanks rest else ch :: rest

/-- The text after a fixed word, where the text begins with it. -/
def afterWord : List Char → List Char → Option (List Char)
  | [], cs => some cs
  | _ :: _, [] => none
  | w :: ws, ch :: cs => if w = ch then afterWord ws cs else none

/-- The line has ended, or a comment begins (R71 `line`). -/
def lineEnds (cs : List Char) : Bool :=
  match skipBlanks cs with
  | [] => true
  | ch :: _ => ch == ';'

/-- What is left must be the end of the line; then `a` is the line's meaning. -/
def atEnd {α : Type} (a : α) (cs : List Char) : Option α := if lineEnds cs then some a else none

/-- The value of a hex digit, in either case (log entry 10). -/
def hexValue (ch : Char) : Option Nat :=
  let n := ch.toNat
  if 0x30 ≤ n ∧ n ≤ 0x39 then some (n - 0x30)
  else if 0x41 ≤ n ∧ n ≤ 0x46 then some (n - 0x41 + 10)
  else if 0x61 ≤ n ∧ n ≤ 0x66 then some (n - 0x61 + 10)
  else none

/-- Exactly `n` hex digits, after those whose value is `acc`. -/
def hexDigits : Nat → Nat → List Char → Option (Nat × List Char)
  | 0, acc, cs => some (acc, cs)
  | _ + 1, _, [] => none
  | n + 1, acc, ch :: cs =>
    match hexValue ch with
    | none => none
    | some v => hexDigits n (16 * acc + v) cs

/-- Decimal digits, as many as stand there, after those whose value is `acc`. -/
def decDigits : Nat → List Char → Nat × List Char
  | acc, [] => (acc, [])
  | acc, ch :: cs =>
    if 0x30 ≤ ch.toNat ∧ ch.toNat ≤ 0x39 then decDigits (10 * acc + (ch.toNat - 0x30)) cs
    else (acc, ch :: cs)

/-! ### Operands -/

/-- One qualifier of `quals` (R71): present or absent. -/
def qualifier (q : Char) (cs : List Char) : Bool × List Char :=
  match afterWord ['.', q] cs with
  | some rest => (true, rest)
  | none => (false, cs)

/-- A `word` (R71): `0x` and exactly eight hex digits. -/
def wordOperand (cs : List Char) : Option (Word × List Char) :=
  match afterWord ['0', 'x'] (skipBlanks cs) with
  | none => none
  | some rest =>
    match hexDigits 8 0 rest with
    | none => none
    | some (v, rest') => some (BitVec.ofNat 32 v, rest')

/-- A `word` after a comma. -/
def commaWord (cs : List Char) : Option (Word × List Char) :=
  match afterWord [','] (skipBlanks cs) with
  | none => none
  | some rest => wordOperand rest

/-- The characters of a quoted seed (R71): codes 0x20 to 0x7E but for the double quote and the
backslash. -/
def seedChar (ch : Char) : Bool :=
  decide (0x20 ≤ ch.toNat) && decide (ch.toNat ≤ 0x7E) && ch.toNat != 0x22 && ch.toNat != 0x5C

/-- A quoted seed after its opening quote: each character is one byte, its ASCII code. -/
def quotedSeed : List Char → Option (List Byte × List Char)
  | [] => none
  | ch :: cs =>
    if ch.toNat = 0x22 then some ([], cs)
    else if seedChar ch then
      match quotedSeed cs with
      | none => none
      | some (seed, rest) => some (BitVec.ofNat 8 ch.toNat :: seed, rest)
    else none

/-- A hex seed after `h` and its opening apostrophe: two hex digits a byte, possibly none. -/
def hexSeed : List Char → Option (List Byte × List Char)
  | [] => none
  | [a] => if a.toNat = 0x27 then some ([], []) else none
  | a :: b :: cs =>
    if a.toNat = 0x27 then some ([], b :: cs)
    else
      match hexValue a, hexValue b with
      | some x, some y =>
        match hexSeed cs with
        | none => none
        | some (seed, rest) => some (BitVec.ofNat 8 (16 * x + y) :: seed, rest)
      | _, _ => none

/-- A `seed` (R71), in either form. -/
def seedOperand (cs : List Char) : Option (List Byte × List Char) :=
  match skipBlanks cs with
  | [] => none
  | ch :: rest =>
    if ch.toNat = 0x22 then quotedSeed rest
    else if ch = 'h' then
      match rest with
      | [] => none
      | a :: rest' => if a.toNat = 0x27 then hexSeed rest' else none
    else none

/-! ### Lines -/

/-- `INIT quals seed`, after the mnemonic. -/
def lineInit (cs : List Char) : Option (List Instr) :=
  let (d, cs1) := qualifier 'd' cs
  let (p, cs2) := qualifier 'p' cs1
  match seedOperand cs2 with
  | none => none
  | some (seed, rest) => atEnd [.init d p seed] rest

/-- `LOAD quals word "," word "," word "," word`, after the mnemonic. -/
def lineLoad (cs : List Char) : Option (List Instr) :=
  let (d, cs1) := qualifier 'd' cs
  let (p, cs2) := qualifier 'p' cs1
  match wordOperand cs2 with
  | none => none
  | some (w0, r0) =>
    match commaWord r0 with
    | none => none
    | some (w1, r1) =>
      match commaWord r1 with
      | none => none
      | some (w2, r2) =>
        match commaWord r2 with
        | none => none
        | some (w3, r3) => atEnd [.load d p w0 w1 w2 w3] r3

/-- A pseudo-instruction with a seed, after its name (R72). -/
def linePseudoSeed (make : List Byte → Pseudo) (cs : List Char) : Option (List Instr) :=
  match seedOperand cs with
  | none => none
  | some (seed, rest) => atEnd (expandPseudo (make seed)) rest

/-- `STEPN k`, after the name: at least one decimal digit (R72). -/
def lineStepN (cs : List Char) : Option (List Instr) :=
  match skipBlanks cs with
  | [] => none
  | ch :: rest =>
    if 0x30 ≤ ch.toNat ∧ ch.toNat ≤ 0x39 then
      let (k, rest') := decDigits 0 (ch :: rest)
      atEnd (expandPseudo (.stepN k)) rest'
    else none

/-- The mnemonics, each with what reads the rest of its line. `STEPN` stands before `STEP`, which
begins it. -/
def lineForms : List (List Char × (List Char → Option (List Instr))) :=
  [(['I', 'N', 'I', 'T'], lineInit),
   (['L', 'O', 'A', 'D'], lineLoad),
   (['S', 'T', 'E', 'P', 'N'], lineStepN),
   (['S', 'T', 'E', 'P'], atEnd [.step]),
   (['R', 'E', 'A', 'D'], atEnd [.read]),
   (['N', 'E', 'W'], linePseudoSeed .new),
   (['S', 'T', 'A', 'T', 'E'], linePseudoSeed .state)]

/-- The first form whose mnemonic begins the text reads the rest. -/
def readLine : List (List Char × (List Char → Option (List Instr))) → List Char →
    Option (List Instr)
  | [], _ => none
  | (name, form) :: forms, cs =>
    match afterWord name cs with
    | some rest => form rest
    | none => readLine forms cs

/-- The commands one line of text stands for (R71, R72); `none` where the line is not in the
grammar. -/
def assembleLine (cs : List Char) : Option (List Instr) := readLine lineForms (skipBlanks cs)

/-- The packets of one line (R71 "Encoding of a line"). -/
def assemblePackets (cs : List Char) : Option (List Packet) := (assembleLine cs).map (·.map encode)

/-! ### The printer -/

/-- A hex digit below 16, upper case as the spec's examples have it. -/
def hexChar (n : Nat) : Char := if n < 10 then Char.ofNat (0x30 + n) else Char.ofNat (0x41 + (n - 10))

/-- Two hex digits. -/
def showByte (b : Byte) : List Char := [hexChar (b.toNat / 16), hexChar (b.toNat % 16)]

/-- `0x` and eight hex digits. -/
def showWord (w : Word) : List Char := '0' :: 'x' :: (bytesBe32 w).flatMap showByte

/-- `.d` and `.p` where the bits are set. -/
def showQuals (d p : Bool) : List Char :=
  (if d then ['.', 'd'] else []) ++ (if p then ['.', 'p'] else [])

/-- A command as a line of R71; a seed in its hex form. -/
def showInstr : Instr → List Char
  | .init d p seed =>
    ['I', 'N', 'I', 'T'] ++ showQuals d p ++ [' ', 'h', Char.ofNat 0x27] ++
      seed.flatMap showByte ++ [Char.ofNat 0x27]
  | .load d p w0 w1 w2 w3 =>
    ['L', 'O', 'A', 'D'] ++ showQuals d p ++ [' '] ++ showWord w0 ++ [',', ' '] ++ showWord w1 ++
      [',', ' '] ++ showWord w2 ++ [',', ' '] ++ showWord w3
  | .step => ['S', 'T', 'E', 'P']
  | .read => ['R', 'E', 'A', 'D']

end Sys2Proof
end

