-- ==== Sys2Proof/Machine/Instances.lean ====
section
/-! DEFINITION. Several instances of the block (rule R142): each has its own state and its own
channels, and one of them steps at a time (DESIGN CHOICE: log entry 13). -/

namespace Sys2Proof.Machine

/-- Instance `k` steps; where there is no such instance, nothing happens. -/
def stepInstance : Nat → List State → Host.Outcome (List State) Fault Refusal
  | _, [] => .next []
  | 0, s :: others =>
    match step s with
    | .next t => .next (t :: others)
    | .fault f => .fault f
    | .refused r => .refused r
  | k + 1, s :: others =>
    match stepInstance k others with
    | .next ts => .next (s :: ts)
    | .fault f => .fault f
    | .refused r => .refused r

end Sys2Proof.Machine
end

