-- ==== Sys2Proof/Safety.lean ====
section
/-! DEFINITION. What the claims speak of: the legal responses (rules R63, R64), the invariant of a
state that a run can reach, and running a list of commands or packets (R172). -/

namespace Sys2Proof.Machine

/-- A response the block may send (R63, R64): an error status alone, or `00` and a payload of 0
bytes (INIT, LOAD), 4 (STEP) or 20 (READ). -/
def responseLegal : Packet → Bool
  | [] => false
  | status :: payload =>
    (status == 0x00#8 && (payload.length == 0 || payload.length == 4 || payload.length == 20)) ||
    ((status == 0x01#8 || status == 0x02#8) && payload.length == 0)

/-- The invariant: the words and the counter hold a value exactly when `SEEDED = 1` (R29); `CFG` is
0 until a command writes it (R30, R33); every response waiting to be taken is one of R63's. -/
def State.inv (s : State) : Bool :=
  (s.seeded == s.gen.isSome) &&
  (s.seeded || s.cfg == { d := false, p := false }) &&
  s.outbox.all responseLegal

/-- Execute a list of commands in order, stopping at the first that does not answer a next state. -/
def runInstrs : List Instr → State → Host.Outcome State Fault Refusal
  | [], s => .next s
  | i :: is, s =>
    match exec i s with
    | .next t => runInstrs is t
    | .fault f => .fault f
    | .refused r => .refused r

/-- `n` steps of the block, stopping at the first that does not answer a next state: what the host's
`Host.Core.run` does with this machine, on this machine's own types. -/
def runSteps : Nat → State → Host.Outcome State Fault Refusal
  | 0, s => .next s
  | n + 1, s =>
    match step s with
    | .next t => runSteps n t
    | .fault f => .fault f
    | .refused r => .refused r

/-- One transition of R172, on a packet and apart from the channel it came on: `exec` of the decoded
command, and the response `01` with the state unchanged for an illegal packet. -/
def answerPacket (s : State) (p : Packet) : State :=
  match decode p with
  | .error _ => { s with outbox := s.outbox ++ [[0x01#8]] }
  | .ok i =>
    match exec i s with
    | .next t => t
    | .fault _ => s
    | .refused _ => s

end Sys2Proof.Machine
end

