-- ==== Sys2Proof/Certificates/Slice0/Obligations.lean ====
section
/-! DEFINITION. The statements for the provers. The first part writes the round of rules R101 to R108
once more, on natural numbers with every `mod 2^32` in sight, so that the statements compare the
machine with the rule and not with itself. -/

namespace Sys2Proof.Claims

/-- `s0, s1, s2, s3, c` as numbers. -/
abbrev Nums := Nat × Nat × Nat × Nat × Nat

/-- The five values of a generator (R20). -/
def nums (g : Machine.GeneratorState) : Nums :=
  (g.s0.toNat, g.s1.toNat, g.s2.toNat, g.s3.toNat, g.c.toNat)

/-- Step 2 (R102), under either reading of `XOR_SCOPE` (R11). -/
def collatzNum (scope : XorScope) (mixed : Nat) : Nat :=
  if mixed % 2 = 0 then
    match scope with
    | .oddOnly => mixed / 2
    | .both => (mixed / 2) ^^^ 0xA5A5A5A5
  else ((3 * mixed + 1) % 2 ^ 32) ^^^ 0xA5A5A5A5

/-- `rotl32` (R15). -/
def rotlNum (a r : Nat) : Nat := if r = 0 then a else (a * 2 ^ r) % 2 ^ 32 ||| a / 2 ^ (32 - r)

/-- Steps 1 to 5 (R101 to R105): `new`. -/
def outputNum (d : Bool) : Nums → Nat
  | (s0, s1, s2, s3, c) =>
    let mixed := if d then s0 else s0 ^^^ s2
    let t2 := collatzNum .oddOnly mixed
    let t3 := rotlNum t2 (s1 &&& 0x1F)
    let t4 := (t3 + (c + 1) % 2 ^ 32) % 2 ^ 32
    (t4 + s2) % 2 ^ 32 ^^^ s3

/-- The new state (R106, R104). -/
def roundNum (d p : Bool) : Nums → Nums
  | (s0, s1, s2, s3, c) =>
    (if p then s1 else s1 ^^^ s3, s2, s3, outputNum d (s0, s1, s2, s3, c), (c + 1) % 2 ^ 32)

/-- The canonical configuration, all zero (R26). -/
def canonical : Machine.Cfg := { d := false, p := false }

end Sys2Proof.Claims

open Sys2Proof Sys2Proof.Machine Sys2Proof.Claims

/-! ### Arithmetic and byte order -/

/-- R15: the primitives, as numbers and bit by bit, and where `rotl32` moves each bit. -/
def Obligations.ArithmeticPrimitives : Prop :=
  (∀ (a b : Word) (i : Nat), i < 32 →
    (a ^^^ b).getLsbD i = (a.getLsbD i != b.getLsbD i) ∧
    (a &&& b).getLsbD i = (a.getLsbD i && b.getLsbD i)) ∧
  (∀ a b : Word, (add32 a b).toNat = (a.toNat + b.toNat) % 2 ^ 32) ∧
  (∀ a : Word, (mul3p1 Config.params a).toNat = (3 * a.toNat + 1) % 2 ^ 32 ∧
    mul3p1 Config.params a = add32 (add32 (add32 a a) a) 1#32) ∧
  (∀ a : Word, (shr1 a).toNat = a.toNat / 2 ∧ (shr1 a).getLsbD 31 = false) ∧
  (∀ (a : Word) (r : Nat), r ≤ 31 →
    (rotl32 a r).toNat = rotlNum a.toNat r ∧
    ∀ i, i < 32 → (rotl32 a r).getLsbD ((i + r) % 32) = a.getLsbD i)

/-- R16: `be32` is big-endian and `bytes_be32` is its inverse. -/
def Obligations.BigEndianBytesAreInverse : Prop :=
  (∀ b0 b1 b2 b3 : Byte, (be32 b0 b1 b2 b3).toNat =
    b0.toNat * 2 ^ 24 + b1.toNat * 2 ^ 16 + b2.toNat * 2 ^ 8 + b3.toNat) ∧
  (∀ w : Word, (bytesBe32 w).map BitVec.toNat =
    [w.toNat / 2 ^ 24, w.toNat / 2 ^ 16 % 2 ^ 8, w.toNat / 2 ^ 8 % 2 ^ 8, w.toNat % 2 ^ 8]) ∧
  (∀ (w : Word) (b0 b1 b2 b3 : Byte), bytesBe32 w = [b0, b1, b2, b3] ↔ be32 b0 b1 b2 b3 = w)

/-! ### Decoding and encoding -/

/-- Packets of 95_test_vectors.md section 5, byte by byte, and the commands they are. -/
def Obligations.SamplePacketsDecode : Prop :=
  decode [0x01#8, 0x02#8, 0x61#8, 0x62#8, 0x63#8] =
    .ok (.init false true [0x61#8, 0x62#8, 0x63#8]) ∧
  decode [0x01#8, 0x03#8] = .ok (.init true true []) ∧
  decode [0x02#8, 0x01#8, 0x12#8, 0x34#8, 0x56#8, 0x78#8, 0x9A#8, 0xBC#8, 0xDE#8, 0xF0#8,
      0x0F#8, 0x1E#8, 0x2D#8, 0x3C#8, 0x4B#8, 0x5A#8, 0x69#8, 0x78#8] =
    .ok (.load true false 0x12345678#32 0x9ABCDEF0#32 0x0F1E2D3C#32 0x4B5A6978#32) ∧
  decode [0x03#8] = .ok .step ∧
  decode [0x04#8] = .ok .read

/-- R62: LOAD's words are `be32` of the packet bytes in order, each operand byte at every value and
under every legal FLAGS; INIT's seed is the rest of the packet, unchanged; two INIT packets with
different seeds are different commands. -/
def Obligations.OperandsComeFromTheirBytes : Prop :=
  (∀ (fl b2 b3 b4 b5 b6 b7 b8 b9 b10 b11 b12 b13 b14 b15 b16 b17 : Byte), fl.toNat < 4 →
    decode [0x02#8, fl, b2, b3, b4, b5, b6, b7, b8, b9, b10, b11, b12, b13, b14, b15, b16, b17] =
      .ok (.load (fl.getLsbD 0) (fl.getLsbD 1) (be32 b2 b3 b4 b5) (be32 b6 b7 b8 b9)
        (be32 b10 b11 b12 b13) (be32 b14 b15 b16 b17))) ∧
  (∀ (fl : Byte) (seed : List Byte), fl.toNat < 4 →
    decode (0x01#8 :: fl :: seed) = .ok (.init (fl.getLsbD 0) (fl.getLsbD 1) seed)) ∧
  (∀ (fl fl' : Byte) (seed seed' : List Byte), fl.toNat < 4 → fl'.toNat < 4 → seed ≠ seed' →
    decode (0x01#8 :: fl :: seed) ≠ decode (0x01#8 :: fl' :: seed'))

/-- R67: which packets are illegal, exactly; and what the block does with one. -/
def Obligations.IllegalPacketsExactly : Prop :=
  (∀ p : Packet, (∃ why, decode p = .error why) ↔
    (p = [] ∨
     ∃ op rest, p = op :: rest ∧
      ((op.toNat = 0 ∨ 5 ≤ op.toNat) ∨
       (op.toNat = 1 ∧ rest = []) ∨
       (op.toNat = 2 ∧ p.length ≠ 18) ∨
       ((op.toNat = 3 ∨ op.toNat = 4) ∧ p.length ≠ 1) ∨
       ((op.toNat = 1 ∨ op.toNat = 2) ∧
        ∃ fl more, rest = fl :: more ∧ ∃ k, 2 ≤ k ∧ k ≤ 7 ∧ fl.getLsbD k = true)))) ∧
  (∀ (s : State) (p : Packet) (rest : List HostEvent) (why : Illegal),
    s.inbox = .packet p :: rest → decode p = .error why →
    step s = .next { s with inbox := rest, outbox := s.outbox ++ [[0x01#8]] })

/-- The decoder accepts exactly the packets that the table of R65 calls legal. -/
def Obligations.DecoderAcceptsTheTable : Prop :=
  ∀ p : Packet, (∃ i, decode p = .ok i) ↔ packetLegal p = true

/-- Decoding an encoded command gives it back, every operand at every value. -/
def Obligations.DecodeOfEncode : Prop :=
  ∀ i : Instr, i.wellFormed = true → decode (encode i) = .ok i

/-- 30_encoding.md section 5, at its end: the encoder is the decoder's inverse, and two different legal packets are two different
commands. -/
def Obligations.EncodeOfDecode : Prop :=
  (∀ (p : Packet) (i : Instr), decode p = .ok i → encode i = p) ∧
  (∀ (p q : Packet) (i : Instr), decode p = .ok i → decode q = .ok i → p = q)

/-- 30_encoding.md section 8: what each pseudo-instruction expands to. -/
def Obligations.PseudoInstructionsExpand : Prop :=
  (∀ seed : List Byte, expandPseudo (.new seed) = [.init false false seed]) ∧
  (∀ k : Nat, (expandPseudo (.stepN k)).length = k ∧ ∀ i ∈ expandPseudo (.stepN k), i = .step) ∧
  (∀ seed : List Byte, expandPseudo (.state seed) = [.init false false seed, .read])

/-- Every command printed as a line of R71 is read back as itself, and its packet is its encoding.
Where spaces may stand and that hex digits may be of either case is the model's choice (log entry
10); the printed lines have one space after the mnemonic and after each comma, as the spec's
examples do. -/
def Obligations.PrintedLinesAssemble : Prop :=
  ∀ i : Instr, assembleLine (showInstr i) = some [i] ∧
    assemblePackets (showInstr i) = some [encode i]

/-! ### The round function -/

/-- R101, R104 to R107: the machine's round is the six steps (`Round` of R108), in every
configuration and on every state; the output is the new `s3`. -/
def Obligations.RoundIsTheRule : Prop :=
  ∀ (cfg : Cfg) (g : GeneratorState),
    nums (engineRound Config.params cfg g).1 = roundNum cfg.d cfg.p (nums g) ∧
    (engineRound Config.params cfg g).2.toNat = outputNum cfg.d (nums g) ∧
    (engineRound Config.params cfg g).2 = (engineRound Config.params cfg g).1.s3

/-- R102: the Collatz step under `odd_only`, which the hardware takes, and under the alternative
reading `both`; on the even branch bit 31 is 0. -/
def Obligations.CollatzStepBranches : Prop :=
  (∀ mixed : Word, (collatz Config.params mixed).toNat = collatzNum .oddOnly mixed.toNat) ∧
  (∀ mixed : Word, (collatz { Config.params with xorScope := .both } mixed).toNat =
    collatzNum .both mixed.toNat) ∧
  (∀ mixed : Word, mixed.getLsbD 0 = false → (collatz Config.params mixed).getLsbD 31 = false)

/-- An odd word times 3 plus 1 is even, and the odd branch gives an odd word: an inference
41_stateengine.md section 3 marks as its own ("derived: from 00_scope.md rule R15"). -/
def Obligations.OddBranchStaysOdd : Prop :=
  ∀ mixed : Word, mixed.getLsbD 0 = true →
    (mul3p1 Config.params mixed).getLsbD 0 = false ∧
    (collatz Config.params mixed).getLsbD 0 = true

/-- R103: the rotation amount is the five low bits of `s1`, at most 31, and the round rotates the
Collatz value by it; bits 31 to 5 of `s1` do not affect the output; at amount 0 nothing moves. -/
def Obligations.RotationUsesFiveLowBits : Prop :=
  (∀ (cfg : Cfg) (g : GeneratorState), (engineRound Config.params cfg g).2 =
    (rotl32 (collatz Config.params (premix cfg g)) (g.s1 &&& 0x1F#32).toNat +
      (g.c + 1#32) + g.s2) ^^^ g.s3) ∧
  (∀ g : GeneratorState, rotAmount Config.params g = g.s1.toNat % 32 ∧
    rotAmount Config.params g ≤ 31) ∧
  (∀ (cfg : Cfg) (g : GeneratorState) (a : Word), a.toNat % 32 = g.s1.toNat % 32 →
    (engineRound Config.params cfg { g with s1 := a }).2 = (engineRound Config.params cfg g).2) ∧
  (∀ g : GeneratorState, rotAmount Config.params g = 0 →
    ∀ t : Word, rotl32 t (rotAmount Config.params g) = t)

/-- The corner cases of the round, in the order of 41_stateengine.md section 3, which marks them as
its own inference ("derived: from rule R108"). -/
def Obligations.RoundCornerCases : Prop :=
  collatz Config.params 0#32 = 0#32 ∧
  collatz Config.params 1#32 = 0xA5A5A5A1#32 ∧
  collatz Config.params 0xFFFFFFFF#32 = 0x5A5A5A5B#32 ∧
  collatz Config.params 0x55555555#32 = 0xA5A5A5A5#32 ∧
  collatz Config.params 0x80000000#32 = 0x40000000#32 ∧
  (∀ (g : GeneratorState) (t : Word), g.s1.toNat % 32 = 0 →
    rotl32 t (rotAmount Config.params g) = t) ∧
  (∀ a : Word, (rotl32 a 31).getLsbD 31 = a.getLsbD 0 ∧
    ∀ i, i < 31 → (rotl32 a 31).getLsbD i = a.getLsbD (i + 1)) ∧
  (∀ g : GeneratorState, g.c = 0xFFFFFFFF#32 → nextCounter g = 0#32 ∧
    ∀ t : Word, add32 t (nextCounter g) = t) ∧
  (∀ g : GeneratorState, g.s0 = g.s2 → premix canonical g = 0#32) ∧
  (engineRound Config.params canonical { s0 := 0, s1 := 0, s2 := 0, s3 := 0, c := 0 } =
    ({ s0 := 0, s1 := 0, s2 := 0, s3 := 1, c := 1 }, 1#32) ∧
   ∀ (cfg : Cfg) (g : GeneratorState), (engineRound Config.params cfg g).1 ≠ g)

/-- 41_stateengine.md section 3 marks this as its own inference ("derived: from rule R102 and rule
R106"): step 2 takes every odd word below 2^31 exactly twice, no even word at or above 2^31, and
is one-to-one from odd words onto odd words; the spec's two colliding states have one successor. -/
def Obligations.RoundIsNotInjective : Prop :=
  (∀ t : Word, t.getLsbD 0 = true → t.toNat < 2 ^ 31 →
    ∃ m n : Word, m ≠ n ∧ ∀ x : Word, collatz Config.params x = t ↔ (x = m ∨ x = n)) ∧
  (∀ t : Word, t.getLsbD 0 = false → 2 ^ 31 ≤ t.toNat → ∀ x : Word, collatz Config.params x ≠ t) ∧
  (∀ t : Word, t.toNat < 2 ^ 31 →
    ∃ x : Word, x.getLsbD 0 = false ∧ collatz Config.params x = t) ∧
  (∀ t : Word, t.getLsbD 0 = true →
    ∃ x : Word, x.getLsbD 0 = true ∧ collatz Config.params x = t ∧
      ∀ y : Word, y.getLsbD 0 = true → collatz Config.params y = t → y = x) ∧
  (engineRound Config.params canonical
      { s0 := 0x00000002, s1 := 0x00000005, s2 := 0, s3 := 0x00000009, c := 0x00000010 } =
    engineRound Config.params canonical
      { s0 := 0xE1E1E1E1, s1 := 0x00000005, s2 := 0, s3 := 0x00000009, c := 0x00000010 })

/-- After a round, what the next round's pre-mix is, in each configuration: the first half of the
cancellation that 41_stateengine.md section 3 marks as its own inference ("derived: from rule R101
and rule R106"). -/
def Obligations.NextPremixIsAnOldWord : Prop :=
  ∀ (cfg : Cfg) (g : GeneratorState),
    premix cfg (engineRound Config.params cfg g).1 =
      if cfg.d = cfg.p then g.s1 else g.s1 ^^^ g.s3

/-- The counter counts rounds modulo 2^32 (10_state.md section 4), and is back where it was after
`n` rounds exactly when `n` is a multiple of 2^32 (70_reset_and_hazards.md section 3 "Counter wrap",
marked there as an inference). -/
def Obligations.CounterCountsRounds : Prop :=
  ∀ (cfg : Cfg) (g : GeneratorState) (n : Nat),
    (iterRound Config.params cfg n g).c.toNat = (g.c.toNat + n) % 2 ^ 32 ∧
    ((iterRound Config.params cfg n g).c = g.c ↔ n % 2 ^ 32 = 0)

/-! ### The commands: what each does, and what it leaves -/

/-- STEP on a seeded block completes: one `Round` on the state, the new `s3` in the response, and
nothing else changed: `CFG`, `SEEDED` and the command channel stay, and earlier responses stay. -/
def Obligations.StepAdvancesOneRound : Prop :=
  ∀ (s : State) (g : GeneratorState), s.seeded = true → s.gen = some g →
    ∃ g' : GeneratorState,
      exec .step s = .next { s with
        gen := some g', outbox := s.outbox ++ [0x00#8 :: bytesBe32 g'.s3] } ∧
      nums g' = roundNum s.cfg.d s.cfg.p (nums g)

/-- READ on a seeded block completes: the 20 bytes of `s0 s1 s2 s3 c` in the response, and no field
of the state written. -/
def Obligations.ReadReturnsTheState : Prop :=
  ∀ (s : State) (g : GeneratorState), s.seeded = true → s.gen = some g →
    exec .read s = .next { s with outbox := s.outbox ++
      [0x00#8 :: (bytesBe32 g.s0 ++ bytesBe32 g.s1 ++ bytesBe32 g.s2 ++ bytesBe32 g.s3 ++
        bytesBe32 g.c)] }

/-- R83, R84: LOAD completes on every state, with `CFG` from FLAGS, `SEEDED = 1` and `Round^128`
applied to the four words and `C_INIT = 0`, so that `c = 0x80`; nothing of the earlier state is read,
no warm-up output is sent, and the channels but for the response `00` are as they were. -/
def Obligations.LoadRunsTheWarmup : Prop :=
  ∀ (d p : Bool) (w0 w1 w2 w3 : Word), ∃ g : GeneratorState,
    nums g = (roundNum d p)^[128] (w0.toNat, w1.toNat, w2.toNat, w3.toNat, 0) ∧
    g.c = 0x00000080#32 ∧
    ∀ s : State, exec (.load d p w0 w1 w2 w3) s =
      .next { s with gen := some g, cfg := { d := d, p := p }, seeded := true,
                     outbox := s.outbox ++ [[0x00#8]] }

/-- R82: the four words of the split, from digest bytes 0 to 15; bytes 16 to 31 are not used. -/
def Obligations.SplitTakesTheFirstSixteenBytes : Prop :=
  (∀ dg : Vector Byte 32, splitDigest dg =
    (be32 dg[0] dg[1] dg[2] dg[3], be32 dg[4] dg[5] dg[6] dg[7],
     be32 dg[8] dg[9] dg[10] dg[11], be32 dg[12] dg[13] dg[14] dg[15])) ∧
  (∀ dg dg' : Vector Byte 32, (∀ i (h : i < 16), dg[i] = dg'[i]) → splitDigest dg = splitDigest dg')

/-- INIT completes on every state and for every seed, the empty one among them: the warm-up of the
four words of the seed's digest, whatever the digest is. -/
def Obligations.InitRunsTheKeySchedule : Prop :=
  ∀ (d p : Bool) (seed : List Byte), ∃ g : GeneratorState,
    nums g = (roundNum d p)^[128]
      ((be32 (Config.digest seed)[0] (Config.digest seed)[1] (Config.digest seed)[2]
          (Config.digest seed)[3]).toNat,
       (be32 (Config.digest seed)[4] (Config.digest seed)[5] (Config.digest seed)[6]
          (Config.digest seed)[7]).toNat,
       (be32 (Config.digest seed)[8] (Config.digest seed)[9] (Config.digest seed)[10]
          (Config.digest seed)[11]).toNat,
       (be32 (Config.digest seed)[12] (Config.digest seed)[13] (Config.digest seed)[14]
          (Config.digest seed)[15]).toNat, 0) ∧
    ∀ s : State, exec (.init d p seed) s =
      .next { s with gen := some g, cfg := { d := d, p := p }, seeded := true,
                     outbox := s.outbox ++ [[0x00#8]] }

/-- INIT is LOAD of the split of the seed's digest: 40_keyscheduler.md section 4 "Equivalence with
INIT", marked there as an inference. -/
def Obligations.InitIsLoadOfTheDigest : Prop :=
  ∀ (d p : Bool) (seed : List Byte) (w0 w1 w2 w3 : Word),
    splitDigest (Config.digest seed) = (w0, w1, w2, w3) →
    ∀ s : State, exec (.init d p seed) s = exec (.load d p w0 w1 w2 w3) s

/-- 10_state.md section 2, marked there as an inference: after a successful STEP, `s3` holds the word that STEP returned, and a READ after it gives
that word in its bytes 13 to 16. -/
def Obligations.LastOutputStaysInS3 : Prop :=
  ∀ (s : State) (g : GeneratorState), s.seeded = true → s.gen = some g →
    ∃ (t u : State) (g' : GeneratorState) (new : Word) (r : Packet),
      exec .step s = .next t ∧ t.gen = some g' ∧ g'.s3 = new ∧
      t.outbox = s.outbox ++ [0x00#8 :: bytesBe32 new] ∧
      exec .read t = .next u ∧ u.outbox = t.outbox ++ [r] ∧ (r.drop 13).take 4 = bytesBe32 new

/-- 20_memory.md section 4 "Side effects of reading", marked there as an inference: READ changes no
register and two READs with nothing between give the same response; STEP
does change the generator, on every seeded state. -/
def Obligations.ReadIsIdempotentStepIsNot : Prop :=
  (∀ s : State, ∃ (t u : State) (r : Packet),
    exec .read s = .next t ∧ t.gen = s.gen ∧ t.cfg = s.cfg ∧ t.seeded = s.seeded ∧
    t.outbox = s.outbox ++ [r] ∧
    exec .read t = .next u ∧ u.outbox = t.outbox ++ [r]) ∧
  (∀ s : State, s.seeded = true → s.gen.isSome = true →
    ∃ t : State, exec .step s = .next t ∧ t.gen ≠ s.gen)

/-- R132: STEP and READ while `SEEDED = 0` answer the single byte 02 and change nothing; in a state
that meets the invariant nothing else is ever answered 02. -/
def Obligations.NotSeededIsRefused : Prop :=
  (∀ s : State, s.seeded = false →
    exec .step s = .next { s with outbox := s.outbox ++ [[0x02#8]] } ∧
    exec .read s = .next { s with outbox := s.outbox ++ [[0x02#8]] }) ∧
  (∀ (s t : State) (i : Instr), s.inv = true → exec i s = .next t →
    t.outbox = s.outbox ++ [[0x02#8]] → (i = .step ∨ i = .read) ∧ s.seeded = false)

/-- R130, R89: INIT and LOAD answer OK on every block, whatever their operands, and every command
answers OK on a seeded block. In every state that meets the invariant. -/
def Obligations.LegalCommandsSucceed : Prop :=
  (∀ (s : State) (i : Instr), i ≠ .step → i ≠ .read →
    ∃ t, exec i s = .next t ∧ t.outbox = s.outbox ++ [[0x00#8]]) ∧
  (∀ (s : State) (i : Instr), s.inv = true → s.seeded = true →
    ∃ t payload, exec i s = .next t ∧ t.outbox = s.outbox ++ [0x00#8 :: payload])

/-! ### The step, errors and reset -/

/-- The step runs the decoded command: when the next thing the host has done is a packet that decodes
to `i`, `step` is `exec i` on the state with that packet taken. -/
def Obligations.StepRunsTheDecodedCommand : Prop :=
  ∀ (s : State) (p : Packet) (rest : List HostEvent) (i : Instr),
    s.inbox = .packet p :: rest → decode p = .ok i → i.wellFormed = true →
    step s = exec i { s with inbox := rest }

/-- With nothing sent, the block is idle and holds its state. -/
def Obligations.IdleBlockHoldsItsState : Prop :=
  ∀ s : State, s.inbox = [] → step s = .next s

/-- R63 and R64: one response per command packet, with these bytes and no others, and the packets
behind it untouched. In every state that meets the invariant. -/
def Obligations.EveryPacketGetsOneResponse : Prop :=
  ∀ (s : State) (p : Packet) (rest : List HostEvent), s.inv = true →
    s.inbox = .packet p :: rest →
    ∃ (t : State) (r : Packet), step s = .next t ∧ t.inbox = rest ∧ t.outbox = s.outbox ++ [r] ∧
      match decode p with
      | .error _ => r = [0x01#8]
      | .ok (.init _ _ _) => r = [0x00#8]
      | .ok (.load _ _ _ _ _ _) => r = [0x00#8]
      | .ok .step =>
        (s.seeded = false ∧ r = [0x02#8]) ∨
        (s.seeded = true ∧ r.length = 5 ∧ ∃ g, s.gen = some g ∧
          r = 0x00#8 :: bytesBe32 (engineRound Config.params s.cfg g).2)
      | .ok .read =>
        (s.seeded = false ∧ r = [0x02#8]) ∨
        (s.seeded = true ∧ r.length = 21 ∧ ∃ g, s.gen = some g ∧
          r = 0x00#8 :: (bytesBe32 g.s0 ++ bytesBe32 g.s1 ++ bytesBe32 g.s2 ++ bytesBe32 g.s3 ++
            bytesBe32 g.c))

/-- R135: `E_ILLEGAL` comes before `E_NOTSEEDED`, whatever the state; a STEP with a trailing byte on
an unseeded block answers 01. -/
def Obligations.IllegalComesBeforeNotSeeded : Prop :=
  (∀ (s : State) (p : Packet) (rest : List HostEvent) (why : Illegal),
    s.inbox = .packet p :: rest → decode p = .error why →
    ∃ t, step s = .next t ∧ t.outbox = s.outbox ++ [[0x01#8]]) ∧
  (∀ (s : State) (p : Packet) (rest : List HostEvent),
    s.inbox = .packet p :: rest → (decode p = .ok .step ∨ decode p = .ok .read) →
    s.seeded = false → ∃ t, step s = .next t ∧ t.outbox = s.outbox ++ [[0x02#8]]) ∧
  (∀ (s : State) (rest : List HostEvent), s.seeded = false →
    s.inbox = .packet [0x03#8, 0x00#8] :: rest →
    ∃ t, step s = .next t ∧ t.outbox = s.outbox ++ [[0x01#8]])

/-- R136: a step that answers an error status has had no other effect. -/
def Obligations.ErrorsChangeNothing : Prop :=
  ∀ (s t : State) (p : Packet) (rest : List HostEvent) (code : Byte),
    s.inbox = .packet p :: rest → step s = .next t → t.outbox = s.outbox ++ [[code]] →
    code ≠ 0x00#8 → t = { s with inbox := rest, outbox := s.outbox ++ [[code]] }

/-- Every way the state changes: the list of 10_state.md section 9, marked there as an inference. -/
def Obligations.StateChangesOnlyAsListed : Prop :=
  ∀ s t : State, step s = .next t →
    (∀ rest, s.inbox = .reset :: rest →
      t.seeded = false ∧ t.cfg = canonical ∧ t.gen = none) ∧
    (∀ p rest d q seed, s.inbox = .packet p :: rest → decode p = .ok (.init d q seed) →
      t.seeded = true ∧ t.cfg = { d := d, p := q } ∧ t.gen.isSome = true) ∧
    (∀ p rest d q w0 w1 w2 w3, s.inbox = .packet p :: rest →
      decode p = .ok (.load d q w0 w1 w2 w3) →
      t.seeded = true ∧ t.cfg = { d := d, p := q } ∧ t.gen.isSome = true) ∧
    (∀ p rest, s.inbox = .packet p :: rest → decode p = .ok .step →
      t.cfg = s.cfg ∧ t.seeded = s.seeded) ∧
    ((s.inbox = [] ∨
      (∃ p rest, s.inbox = .packet p :: rest ∧
        (decode p = .ok .read ∨ (∃ why, decode p = .error why) ∨
          t.outbox = s.outbox ++ [[0x01#8]] ∨ t.outbox = s.outbox ++ [[0x02#8]]))) →
      t.gen = s.gen ∧ t.cfg = s.cfg ∧ t.seeded = s.seeded)

/-- R27: `SEEDED` is 0 after reset, INIT and LOAD set it, STEP and READ test it, and nothing but
reset clears it. -/
def Obligations.OnlyResetClearsSeeded : Prop :=
  State.reset.seeded = false ∧
  (∀ (s : State) (i : Instr), i ≠ .step → i ≠ .read →
    ∃ t, exec i s = .next t ∧ t.seeded = true) ∧
  (∀ (s : State) (i : Instr), i = .step ∨ i = .read → s.seeded = false →
    exec i s = .next { s with outbox := s.outbox ++ [[0x02#8]] }) ∧
  (∀ s t : State, step s = .next t → s.seeded = true → t.seeded = false →
    ∃ rest, s.inbox = .reset :: rest)

/-- R30: the reset state. -/
def Obligations.ResetState : Prop :=
  State.reset.gen = none ∧ State.reset.cfg.d = false ∧ State.reset.cfg.p = false ∧
  State.reset.seeded = false

/-- R156: a reset the block takes leaves the reset state and sends nothing; packets sent before it
are dropped and those sent after it are the first the block sees; only it clears `SEEDED`; the
power-up state is the same. -/
def Obligations.ResetDropsWhatCameBefore : Prop :=
  (∀ (s : State) (rest : List HostEvent), s.inbox = .reset :: rest →
    ∃ t, step s = .next t ∧ t.gen = none ∧ t.cfg = canonical ∧ t.seeded = false ∧
      t.inbox = rest ∧ t.outbox.length ≤ s.outbox.length ∧ ∀ r ∈ t.outbox, r ∈ s.outbox) ∧
  (∀ (s : State) (ps : List Packet),
    (ps.foldl (fun t p => t.send p) s.assertReset).inbox = .reset :: ps.map .packet) ∧
  (∀ s t : State, step s = .next t → s.seeded = true → t.seeded = false →
    ∃ rest, s.inbox = .reset :: rest) ∧
  (State.reset.gen = none ∧ State.reset.cfg = canonical ∧ State.reset.seeded = false)

/-- A command that reset cuts short sends no response and leaves no trace (70_reset_and_hazards.md
section 1 "Reset during a command", marked there as an inference). That responses sent earlier stay
on their channel is the model's choice (log entry 2). -/
def Obligations.ResetAbandonsACommand : Prop :=
  ∀ (s : State) (p : Packet) (rest : List HostEvent), s.inbox = .packet p :: rest →
    step s.assertReset = .next { State.reset with outbox := s.outbox }

/-! ### Whole-machine rules -/

/-- The invariant holds at reset. -/
def Obligations.InvariantAtReset : Prop := State.reset.inv = true

/-- Every step keeps the invariant: the words hold a value exactly while `SEEDED = 1`, `CFG` is 0
until a command writes it, and only the responses of R63 are sent. And a step always answers. -/
def Obligations.EveryStepKeepsTheInvariant : Prop :=
  ∀ s : State, s.inv = true → ∃ t, step s = .next t ∧ t.inv = true

/-- 70_reset_and_hazards.md section 5, marked there as an inference: running the packets of the command channel is the fold of the command transition, one
response for each, in order, and what was sent behind them is untouched. From every state, the
reset state among them. -/
def Obligations.RunIsTheFoldOfItsPackets : Prop :=
  ∀ (s : State) (ps : List Packet) (rest : List HostEvent),
    s.inbox = ps.map .packet ++ rest →
    runSteps ps.length s =
      .next (ps.foldl answerPacket { s with inbox := rest }) ∧
    ∃ rs : List Packet, rs.length = ps.length ∧
      (ps.foldl answerPacket { s with inbox := rest }).outbox = s.outbox ++ rs

/-- 40_keyscheduler.md section 5 "Re-seeding" and "Determinism", marked there as inferences: after an
INIT or LOAD, nothing of what came before can influence any register or any later
response: two blocks in any two states, given the same packets beginning with one, agree. -/
def Obligations.ReseedingForgetsThePast : Prop :=
  ∀ (s1 s2 : State) (p : Packet) (i : Instr) (ps : List Packet),
    decode p = .ok i → i ≠ .step → i ≠ .read →
    s1.inbox = (p :: ps).map .packet → s2.inbox = (p :: ps).map .packet →
    ∃ (t1 t2 : State) (rs : List Packet),
      runSteps (ps.length + 1) s1 = .next t1 ∧
      runSteps (ps.length + 1) s2 = .next t2 ∧
      t1.gen = t2.gen ∧ t1.cfg = t2.cfg ∧ t1.seeded = t2.seeded ∧
      t1.outbox = s1.outbox ++ rs ∧ t2.outbox = s2.outbox ++ rs ∧ rs.length = ps.length + 1

/-- R116: word `k` of the stream of a lifetime, counted from 1, is the `new` of round `128 + k`
counted from the loaded words, whether LOAD brought the words or INIT's digest did; and the counter
has counted all the rounds. -/
def Obligations.StreamIsTheRoundsAfterWarmup : Prop :=
  ∀ (s : State) (i : Instr) (d p : Bool) (w0 w1 w2 w3 : Word) (n : Nat),
    (i = .load d p w0 w1 w2 w3 ∨
      ∃ seed, i = .init d p seed ∧ splitDigest (Config.digest seed) = (w0, w1, w2, w3)) →
    ∃ (t : State) (g : GeneratorState),
      runInstrs (i :: List.replicate n .step) s = .next t ∧
      t.gen = some g ∧ g.c.toNat = (128 + n) % 2 ^ 32 ∧
      t.outbox = s.outbox ++ [0x00#8] :: (List.range n).map (fun k =>
        0x00#8 :: bytesBe32 (engineRound Config.params { d := d, p := p }
          (iterRound Config.params { d := d, p := p } (128 + k)
            { s0 := w0, s1 := w1, s2 := w2, s3 := w3, c := 0#32 })).2)

/-- The cancellation that 41_stateengine.md section 3 marks as its own inference ("derived: from rule
R101 and rule R106"): LOAD of the same words with `w2 = 0` in a configuration and in the one with both options
switched gives generators that agree on `s1, s2, s3, c` and on every response, for the rest of the
lifetime. -/
def Obligations.OppositeConfigurationsAgree : Prop :=
  ∀ (s : State) (d p : Bool) (w0 w1 w3 : Word) (n : Nat),
    ∃ (t u : State) (g h : GeneratorState),
      runInstrs (.load d p w0 w1 0#32 w3 :: List.replicate n .step) s = .next t ∧
      runInstrs (.load (!d) (!p) w0 w1 0#32 w3 :: List.replicate n .step) s = .next u ∧
      t.gen = some g ∧ u.gen = some h ∧
      g.s1 = h.s1 ∧ g.s2 = h.s2 ∧ g.s3 = h.s3 ∧ g.c = h.c ∧ t.outbox = u.outbox

/-- R158: before an INIT or LOAD, any number of STEPs and READs are each answered 02 and do no harm:
the INIT or LOAD after them does what it would have done without them. -/
def Obligations.BootNeedsInitOrLoad : Prop :=
  ∀ (s : State) (is : List Instr) (i : Instr), s.seeded = false →
    (∀ j ∈ is, j = .step ∨ j = .read) → i ≠ .step → i ≠ .read →
    runInstrs is s = .next { s with outbox := s.outbox ++ is.map (fun _ => [0x02#8]) } ∧
    ∃ t u, runInstrs (is ++ [i]) s = .next t ∧ exec i s = .next u ∧
      t.gen = u.gen ∧ t.cfg = u.cfg ∧ t.seeded = u.seeded ∧ t.seeded = true

/-- One instance steps as it would alone, and every other instance is left as it was. The form is the
model's choice (DESIGN CHOICE: log entry 13): that several instances are a list of states of which one
steps at a time (`stepInstance`) is no rule of the spec. 60_exceptions.md section 9 "Instances" gives
only that instances share nothing and may run concurrently. -/
def Obligations.InstancesShareNothing : Prop :=
  ∀ (ss : List State) (k : Nat) (s t : State), ss[k]? = some s → step s = .next t →
    stepInstance k ss = .next (ss.set k t)
end

