-- ==== Sys2Proof/Laws/Decode.lean ====
section
/-! SUPPORT. The small facts of the decoder's and the encoder's pieces. -/

namespace Sys2Proof

theorem be32_toNat (b0 b1 b2 b3 : Byte) :
    (be32 b0 b1 b2 b3).toNat =
      b0.toNat * 2 ^ 24 + b1.toNat * 2 ^ 16 + b2.toNat * 2 ^ 8 + b3.toNat := by
  have := b0.isLt; have := b1.isLt; have := b2.isLt; have := b3.isLt
  simp only [be32, BitVec.toNat_ofNat]
  omega

@[simp] theorem bytesBe32_length (w : Word) : (bytesBe32 w).length = 4 := rfl

theorem be32_of_bytes (w : Word) :
    be32 (w.extractLsb' 24 8) (w.extractLsb' 16 8) (w.extractLsb' 8 8) (w.extractLsb' 0 8) = w := by
  apply BitVec.eq_of_toNat_eq
  have := w.isLt
  simp only [be32_toNat, BitVec.extractLsb'_toNat, Nat.shiftRight_eq_div_pow]
  omega

theorem takeWord_bytesBe32 (w : Word) (rest : List Byte) :
    takeWord (bytesBe32 w ++ rest) = some (w, rest) := by
  simp [bytesBe32, takeWord, be32_of_bytes]

theorem flagsLegal_flagsByte (d p : Bool) : flagsLegal (flagsByte d p) = true := by
  cases d <;> cases p <;> decide

theorem flagD_flagsByte (d p : Bool) : flagD (flagsByte d p) = d := by
  cases d <;> cases p <;> decide

theorem flagP_flagsByte (d p : Bool) : flagP (flagsByte d p) = p := by
  cases d <;> cases p <;> decide

/-- A legal FLAGS byte is the byte of its two option bits: nothing else is in it (R61). -/
theorem flagsByte_of_legal : ∀ fl : Byte, flagsLegal fl = true → flagsByte (flagD fl) (flagP fl) = fl := by
  decide

end Sys2Proof
end

