-- ==== Sys2Proof/Laws/State.lean ====
section
/-! SUPPORT. One lemma per field per update, so that no later proof unfolds a record update. -/

namespace Sys2Proof.Machine

section setGen
variable (g : GeneratorState) (s : State)
@[simp] theorem setGen_gen : (s.setGen g).gen = some g := rfl
@[simp] theorem setGen_cfg : (s.setGen g).cfg = s.cfg := rfl
@[simp] theorem setGen_seeded : (s.setGen g).seeded = s.seeded := rfl
@[simp] theorem setGen_inbox : (s.setGen g).inbox = s.inbox := rfl
@[simp] theorem setGen_outbox : (s.setGen g).outbox = s.outbox := rfl
end setGen

section setCfg
variable (f : Cfg) (s : State)
@[simp] theorem setCfg_gen : (s.setCfg f).gen = s.gen := rfl
@[simp] theorem setCfg_cfg : (s.setCfg f).cfg = f := rfl
@[simp] theorem setCfg_seeded : (s.setCfg f).seeded = s.seeded := rfl
@[simp] theorem setCfg_inbox : (s.setCfg f).inbox = s.inbox := rfl
@[simp] theorem setCfg_outbox : (s.setCfg f).outbox = s.outbox := rfl
end setCfg

section setSeeded
variable (s : State)
@[simp] theorem setSeeded_gen : s.setSeeded.gen = s.gen := rfl
@[simp] theorem setSeeded_cfg : s.setSeeded.cfg = s.cfg := rfl
@[simp] theorem setSeeded_seeded : s.setSeeded.seeded = true := rfl
@[simp] theorem setSeeded_inbox : s.setSeeded.inbox = s.inbox := rfl
@[simp] theorem setSeeded_outbox : s.setSeeded.outbox = s.outbox := rfl
end setSeeded

section respond
variable (r : Packet) (s : State)
@[simp] theorem respond_gen : (s.respond r).gen = s.gen := rfl
@[simp] theorem respond_cfg : (s.respond r).cfg = s.cfg := rfl
@[simp] theorem respond_seeded : (s.respond r).seeded = s.seeded := rfl
@[simp] theorem respond_inbox : (s.respond r).inbox = s.inbox := rfl
@[simp] theorem respond_outbox : (s.respond r).outbox = s.outbox ++ [r] := rfl
end respond

section respondOk
variable (payload : List Byte) (s : State)
@[simp] theorem respondOk_gen : (respondOk payload s).gen = s.gen := rfl
@[simp] theorem respondOk_cfg : (respondOk payload s).cfg = s.cfg := rfl
@[simp] theorem respondOk_seeded : (respondOk payload s).seeded = s.seeded := rfl
@[simp] theorem respondOk_inbox : (respondOk payload s).inbox = s.inbox := rfl
@[simp] theorem respondOk_outbox :
    (respondOk payload s).outbox = s.outbox ++ [0x00#8 :: payload] := rfl
end respondOk

section respondErr
variable (code : ErrorCode) (s : State)
@[simp] theorem respondErr_gen : (respondErr code s).gen = s.gen := rfl
@[simp] theorem respondErr_cfg : (respondErr code s).cfg = s.cfg := rfl
@[simp] theorem respondErr_seeded : (respondErr code s).seeded = s.seeded := rfl
@[simp] theorem respondErr_inbox : (respondErr code s).inbox = s.inbox := rfl
@[simp] theorem respondErr_outbox :
    (respondErr code s).outbox = s.outbox ++ [[errorStatus code]] := rfl
end respondErr

section applyReset
variable (s : State)
@[simp] theorem applyReset_gen : (applyReset s).gen = none := rfl
@[simp] theorem applyReset_cfg : (applyReset s).cfg = { d := false, p := false } := rfl
@[simp] theorem applyReset_seeded : (applyReset s).seeded = false := rfl
@[simp] theorem applyReset_inbox : (applyReset s).inbox = s.inbox := rfl
@[simp] theorem applyReset_outbox : (applyReset s).outbox = s.outbox := rfl
end applyReset

section ksLoad
variable (P : Params) (f : Cfg) (w : Word × Word × Word × Word) (s : State)
@[simp] theorem ksLoad_gen : (ksLoad P f w s).gen = some (warmedUp P f w) := rfl
@[simp] theorem ksLoad_cfg : (ksLoad P f w s).cfg = f := rfl
@[simp] theorem ksLoad_seeded : (ksLoad P f w s).seeded = true := rfl
@[simp] theorem ksLoad_inbox : (ksLoad P f w s).inbox = s.inbox := rfl
@[simp] theorem ksLoad_outbox : (ksLoad P f w s).outbox = s.outbox := rfl
end ksLoad

end Sys2Proof.Machine
end

