-- ==== Sys2Proof/Laws/Ops.lean ====
section
/-! SUPPORT. For each shared operation, and for the step, one lemma that says everything it can do. -/

namespace Sys2Proof.Machine

theorem nextEvent_nil {s : State} (h : s.inbox = []) : nextEvent s = none := by
  simp [nextEvent, h]

theorem nextEvent_cons {s : State} {e : HostEvent} {rest : List HostEvent}
    (h : s.inbox = e :: rest) : nextEvent s = some (e, { s with inbox := rest }) := by
  simp [nextEvent, h]

theorem seededGen_eq_some {s : State} {g : GeneratorState} :
    s.seededGen = some g ↔ s.seeded = true ∧ s.gen = some g := by
  unfold State.seededGen; split <;> simp_all

theorem seededGen_eq_none {s : State} :
    s.seededGen = none ↔ s.seeded = false ∨ s.gen = none := by
  unfold State.seededGen; split <;> simp_all

theorem execStep_of_seeded {s : State} {g : GeneratorState} (h : s.seededGen = some g) :
    execStep s = .next (respondOk (bytesBe32 (engineRound Config.params s.cfg g).2)
      (s.setGen (engineRound Config.params s.cfg g).1)) := by
  simp [execStep, h]

theorem execStep_of_unseeded {s : State} (h : s.seededGen = none) :
    execStep s = .next (respondErr .notSeeded s) := by
  simp [execStep, h]

theorem execRead_of_seeded {s : State} {g : GeneratorState} (h : s.seededGen = some g) :
    execRead s = .next (respondOk (generatorBytes g) s) := by
  simp [execRead, h]

theorem execRead_of_unseeded {s : State} (h : s.seededGen = none) :
    execRead s = .next (respondErr .notSeeded s) := by
  simp [execRead, h]

theorem step_idle {s : State} (h : s.inbox = []) : step s = .next s := by
  simp [step, nextEvent_nil h]

theorem step_reset {s : State} {rest : List HostEvent} (h : s.inbox = .reset :: rest) :
    step s = .next (applyReset { s with inbox := rest }) := by
  simp [step, nextEvent_cons h]

theorem step_illegal {s : State} {p : Packet} {rest : List HostEvent} {why : Illegal}
    (h : s.inbox = .packet p :: rest) (hd : decode p = .error why) :
    step s = .next (respondErr .illegal { s with inbox := rest }) := by
  simp [step, nextEvent_cons h, hd, rejectPacket]

/-- What one step can be: idle, a reset, an illegal packet, or a command. -/
theorem step_cases (s : State) :
    (s.inbox = [] ∧ step s = .next s) ∨
    (∃ rest, s.inbox = .reset :: rest ∧ step s = .next (applyReset { s with inbox := rest })) ∨
    (∃ p rest why, s.inbox = .packet p :: rest ∧ decode p = .error why ∧
      step s = .next (respondErr .illegal { s with inbox := rest })) ∨
    (∃ p rest i, s.inbox = .packet p :: rest ∧ decode p = .ok i ∧
      step s = exec i { s with inbox := rest }) := by
  rcases h : s.inbox with _ | ⟨e | _, rest⟩
  · exact .inl ⟨rfl, step_idle h⟩
  · rcases hd : decode e with why | i
    · exact .inr (.inr (.inl ⟨e, rest, why, rfl, hd, step_illegal h hd⟩))
    · refine .inr (.inr (.inr ⟨e, rest, i, rfl, hd, ?_⟩))
      simp [step, nextEvent_cons h, hd]
  · exact .inr (.inl ⟨rest, rfl, step_reset h⟩)

end Sys2Proof.Machine
end

