-- ==== Sys2Proof/Laws/PerInstr.lean ====
section
/-! SUPPORT. Statements for all commands, one lemma per constructor. -/

/-- The encoder gives a packet that the table of rule R65 calls legal. -/
def Sys2Proof.Laws.EncodeLegal.Statement (i : Sys2Proof.Instr) : Prop :=
  i.wellFormed = true → Sys2Proof.packetLegal (Sys2Proof.encode i) = true

namespace Sys2Proof.Laws.EncodeLegal

theorem init (d p : Bool) (seed : List Byte) : Statement (.init d p seed) := by
  intro _; simp [packetLegal, encode, flagsLegal_flagsByte]

theorem load (d p : Bool) (w0 w1 w2 w3 : Word) : Statement (.load d p w0 w1 w2 w3) := by
  intro _; simp [packetLegal, encode, flagsLegal_flagsByte]

theorem step : Statement .step := fun _ => by decide

theorem read : Statement .read := fun _ => by decide

end Sys2Proof.Laws.EncodeLegal
end

