-- ==== Sys2Proof/Laws/Round.lean ====
section
/-! SUPPORT. The primitives as numbers (R15), and what repeating the round does. -/

namespace Sys2Proof.Machine

theorem add32_toNat (a b : Word) : (add32 a b).toNat = (a.toNat + b.toNat) % 2 ^ 32 := by
  simp [add32, BitVec.toNat_add]

theorem mul3p1_toNat (a : Word) : (mul3p1 Config.params a).toNat = (3 * a.toNat + 1) % 2 ^ 32 := by
  simp [mul3p1, Config.params]

theorem shr1_toNat (a : Word) : (shr1 a).toNat = a.toNat / 2 := by
  simp [shr1, Nat.shiftRight_eq_div_pow]

theorem rotAmount_eq (g : GeneratorState) : rotAmount Config.params g = g.s1.toNat % 32 := by
  simp only [rotAmount, Config.params, BitVec.toNat_and]
  exact Nat.and_two_pow_sub_one_eq_mod g.s1.toNat 5

theorem rotl32_zero (a : Word) : rotl32 a 0 = a := by
  have : a >>> 32 = 0#32 := BitVec.ushiftRight_eq_zero (Nat.le_refl 32)
  simp [rotl32, BitVec.rotateLeft_def, this]

@[simp] theorem engineRound_s1 (P : Params) (f : Cfg) (g : GeneratorState) :
    (engineRound P f g).1.s1 = g.s2 := rfl
@[simp] theorem engineRound_s2 (P : Params) (f : Cfg) (g : GeneratorState) :
    (engineRound P f g).1.s2 = g.s3 := rfl
@[simp] theorem engineRound_s3 (P : Params) (f : Cfg) (g : GeneratorState) :
    (engineRound P f g).1.s3 = (engineRound P f g).2 := rfl
@[simp] theorem engineRound_c (P : Params) (f : Cfg) (g : GeneratorState) :
    (engineRound P f g).1.c = g.c + 1#32 := rfl

/-- The round as a whole, steps 3 to 5 on the value of step 2. -/
theorem engineRound_output (P : Params) (f : Cfg) (g : GeneratorState) :
    (engineRound P f g).2 =
      (rotl32 (collatz P (premix f g)) (rotAmount P g) + (g.c + 1#32) + g.s2) ^^^ g.s3 := rfl

/-- The rounds can be cut anywhere. -/
theorem iterRound_add (P : Params) (f : Cfg) (m n : Nat) (g : GeneratorState) :
    iterRound P f (m + n) g = iterRound P f n (iterRound P f m g) := by
  induction m generalizing g with
  | zero => simp [iterRound]
  | succ m ih => rw [Nat.succ_add]; exact ih _

/-- One round more at the end. -/
theorem iterRound_succ (P : Params) (f : Cfg) (n : Nat) (g : GeneratorState) :
    iterRound P f (n + 1) g = (engineRound P f (iterRound P f n g)).1 :=
  iterRound_add P f n 1 g

end Sys2Proof.Machine
end

