-- ==== Sys2Proof/Laws/Safety.lean ====
section
/-! SUPPORT. Everything a command can do, in one lemma; the invariant taken apart and put together;
the model's run and the host's are the same. -/

namespace Sys2Proof.Machine

/-- What a command can do: construct a generator (INIT, LOAD), be refused because the block is not
seeded (STEP, READ), advance one round (STEP), or report the state (READ). -/
theorem exec_cases (i : Instr) (s : State) :
    (∃ cfg g, i ≠ .step ∧ i ≠ .read ∧
      exec i s = .next { s with
        gen := some g, cfg := cfg, seeded := true, outbox := s.outbox ++ [[0x00#8]] }) ∨
    ((i = .step ∨ i = .read) ∧ s.seededGen = none ∧
      exec i s = .next { s with outbox := s.outbox ++ [[0x02#8]] }) ∨
    (∃ g, i = .step ∧ s.seededGen = some g ∧
      exec i s = .next { s with
        gen := some (engineRound Config.params s.cfg g).1,
        outbox := s.outbox ++ [0x00#8 :: bytesBe32 (engineRound Config.params s.cfg g).2] }) ∨
    (∃ g, i = .read ∧ s.seededGen = some g ∧
      exec i s = .next { s with outbox := s.outbox ++ [0x00#8 :: generatorBytes g] }) := by
  cases i with
  | init d p seed => exact .inl ⟨_, _, by simp, by simp, rfl⟩
  | load d p w0 w1 w2 w3 => exact .inl ⟨_, _, by simp, by simp, rfl⟩
  | step =>
    rcases h : s.seededGen with _ | g
    · exact .inr (.inl ⟨.inl rfl, rfl, execStep_of_unseeded h⟩)
    · exact .inr (.inr (.inl ⟨g, rfl, rfl, execStep_of_seeded h⟩))
  | read =>
    rcases h : s.seededGen with _ | g
    · exact .inr (.inl ⟨.inr rfl, rfl, execRead_of_unseeded h⟩)
    · exact .inr (.inr (.inr ⟨g, rfl, rfl, execRead_of_seeded h⟩))

/-- The invariant as three facts. -/
theorem inv_iff (s : State) : s.inv = true ↔
    s.seeded = s.gen.isSome ∧ (s.seeded = false → s.cfg = { d := false, p := false }) ∧
      ∀ r ∈ s.outbox, responseLegal r = true := by
  simp only [State.inv, Bool.and_eq_true, beq_iff_eq, Bool.or_eq_true, List.all_eq_true, and_assoc]
  cases s.seeded <;> simp

/-- One step of the host's run, for any machine, by the outcome of its step. -/
theorem coreRun_succ (M : Host.Core) (n : Nat) (s : M.State) :
    (∀ t, M.step s = .next t → M.run (n + 1) s = M.run n t) ∧
    (∀ f, M.step s = .fault f → M.run (n + 1) s = .fault f) ∧
    (∀ r, M.step s = .refused r → M.run (n + 1) s = .refused r) := by
  refine ⟨fun t h => ?_, fun f h => ?_, fun r h => ?_⟩ <;> rw [Host.Core.run, h]

/-- Running with the host's `Core.run` is running with `runSteps`. -/
theorem coreRun_eq_runSteps (n : Nat) (s : State) :
    Host.Core.run Sys2Proof.core n s = runSteps n s := by
  induction n generalizing s with
  | zero => rfl
  | succ n ih =>
    have run := coreRun_succ Sys2Proof.core n s
    unfold runSteps
    cases h : step s with
    | next t => exact (run.1 t h).trans (ih t)
    | fault f => exact run.2.1 f h
    | refused r => exact run.2.2 r h

end Sys2Proof.Machine
end

