-- ==== Sys2Proof/Tests/Slice0.lean ====
section
/-! SUPPORT. The model's own tests, one step each; expected values come from 95_test_vectors.md and
from hand calculation, as each says. Then, for every obligation that has hypotheses, a state and
operands that meet them all. -/

namespace Sys2Proof.Tests

open Sys2Proof.Machine

/-- The state a step or a command leaves, where it leaves one. -/
def nextState : Host.Outcome State Fault Refusal → Option State
  | .next s => some s
  | .fault _ => none
  | .refused _ => none

/-- The last response on the channel. -/
def lastResponse (o : Host.Outcome State Fault Refusal) : Option Packet :=
  (nextState o).bind (·.outbox.getLast?)

/-- A generator from its five words. -/
def genOf (s0 s1 s2 s3 c : Word) : GeneratorState := { s0, s1, s2, s3, c }

/-- A seeded block with this generator and configuration, which has sent nothing. -/
def seededWith (d p : Bool) (g : GeneratorState) : State :=
  { gen := some g, cfg := { d := d, p := p }, seeded := true, inbox := [], outbox := [] }

/-- Vector S-6's state before (95 section 2.1). -/
def s6 : GeneratorState := genOf 0x12345678 0x9ABCDEF0 0x0F1E2D3C 0x4B5A6978 0x00000080

/-! ### Decoding: packets written byte by byte (95 section 5.1, R57 to R62) -/

theorem test_decode_init_abc :
    decode [0x01#8, 0x00#8, 0x61#8, 0x62#8, 0x63#8] =
      .ok (.init false false [0x61#8, 0x62#8, 0x63#8]) := by rfl

theorem test_decode_init_flags_and_opcode_like_seed :
    decode [0x01#8, 0x02#8, 0x03#8, 0x00#8] = .ok (.init false true [0x03#8, 0x00#8]) := by rfl

theorem test_decode_load_direct :
    decode [0x02#8, 0x01#8, 0x12#8, 0x34#8, 0x56#8, 0x78#8, 0x9A#8, 0xBC#8, 0xDE#8, 0xF0#8,
      0x0F#8, 0x1E#8, 0x2D#8, 0x3C#8, 0x4B#8, 0x5A#8, 0x69#8, 0x78#8] =
      .ok (.load true false 0x12345678 0x9ABCDEF0 0x0F1E2D3C 0x4B5A6978) := by rfl

theorem test_decode_step : decode [0x03#8] = .ok .step := by rfl

theorem test_decode_read : decode [0x04#8] = .ok .read := by rfl

/-- The encoder on K-L8's packet (95 section 3.2). -/
theorem test_encode_load_plain_direct :
    encode (.load true true 1 2 3 4) =
      [0x02#8, 0x03#8, 0, 0, 0, 1, 0, 0, 0, 2, 0, 0, 0, 3, 0, 0, 0, 4] := by decide

/-- The table's words: opcode alone, operands zero. -/
theorem test_table_words :
    decodeTableWord 8 0x01 = some (.init false false []) ∧
    decodeTableWord 8 0x02 = some (.load false false 0 0 0 0) ∧
    decodeTableWord 8 0x03 = some .step ∧ decodeTableWord 8 0x04 = some .read ∧
    decodeTableWord 16 0x0301 = some (.init true true []) ∧ decodeTableWord 8 0x05 = none := by
  decide

/-! ### Ill-formed packets: one for each check of `packetLegal` (95 section 5.2) -/

theorem test_packet_check_opcode :
    packetLegal [] = false ∧ packetLegal [0x00#8] = false ∧ packetLegal [0x05#8] = false ∧
    packetLegal [0xFF#8] = false := by decide

theorem test_packet_check_init_length_and_flags :
    packetLegal [0x01#8] = false ∧ packetLegal [0x01#8, 0x04#8] = false ∧
    packetLegal [0x01#8, 0x80#8, 0x61#8] = false ∧ packetLegal [0x01#8, 0x03#8] = true := by decide

theorem test_packet_check_load_length_and_flags :
    packetLegal (0x02#8 :: List.replicate 16 0) = false ∧
    packetLegal (0x02#8 :: List.replicate 18 0) = false ∧
    packetLegal (0x02#8 :: 0x04#8 :: List.replicate 16 0) = false ∧
    packetLegal (0x02#8 :: List.replicate 17 0) = true := by decide

theorem test_packet_check_bare_length :
    packetLegal [0x03#8, 0x00#8] = false ∧ packetLegal [0x04#8, 0x04#8] = false ∧
    packetLegal [0x03#8] = true ∧ packetLegal [0x04#8] = true := by decide

/-- No command is ill-formed (R13, R26, R62), the boundary operands among them. -/
theorem test_instr_check :
    Instr.wellFormed (.init true true []) = true ∧
    Instr.wellFormed (.load false false 0 0 0xFFFFFFFF 0) = true ∧
    Instr.wellFormed .step = true ∧ Instr.wellFormed .read = true := by decide

/-- The decoder's reasons, one packet each. -/
theorem test_illegal_reasons :
    decode [] = .error .emptyPacket ∧ decode [0x07#8] = .error (.unassignedOpcode 0x07#8) ∧
    decode [0x01#8] = .error .initWithoutFlags ∧ decode [0x02#8, 0x00#8] = .error .loadLength ∧
    decode [0x03#8, 0x00#8] = .error .trailingBytes ∧
    decode [0x01#8, 0x40#8, 0x61#8] = .error (.reservedFlags 0x40#8) := by
  refine ⟨?_, ?_, ?_, ?_, ?_, ?_⟩ <;> rfl

/-! ### The primitives and the round (95 section 2) -/

theorem test_primitives :
    add32 0xFFFFFFFF 1 = 0 ∧ mul3p1 Config.params 0xAAAAAAAB = 2 ∧ shr1 0x80000000 = 0x40000000 ∧
    rotl32 0x80000001 1 = 3 ∧ rotl32 0x80000001 31 = 0xC0000000 ∧
    rotl32 0x12345678 4 = 0x23456781 ∧ be32 0x12 0x34 0x56 0x78 = 0x12345678 ∧
    bytesBe32 0x0A0B0C0D = [0x0A, 0x0B, 0x0C, 0x0D] := by decide

/-- Vectors S-3, S-5, S-6, S-7, S-10 and S-12, canonical configuration. -/
theorem test_round_canonical :
    (engineRound Config.params ⟨false, false⟩ (genOf 0xFFFFFFFF 0 0 0 0)).1 =
      genOf 0 0 0 0x5A5A5A5C 1 ∧
    (engineRound Config.params ⟨false, false⟩
      (genOf 0xFFFFFFFF 0xFFFFFFFF 0xFFFFFFFF 0xFFFFFFFF 0xFFFFFFFF)).1 =
      genOf 0 0xFFFFFFFF 0xFFFFFFFF 0 0 ∧
    (engineRound Config.params ⟨false, false⟩ s6).1 =
      genOf 0xD1E6B788 0x0F1E2D3C 0x4B5A6978 0x079A552A 0x81 ∧
    (engineRound Config.params ⟨false, false⟩ (genOf 3 0x1F 0 0 0)).1 =
      genOf 0x1F 0 0 0xD2D2D2D8 1 ∧
    (engineRound Config.params ⟨false, false⟩
      (genOf 0xDEADBEEF 0xCAFEBABE 0x01234567 0x89ABCDEF 0xFFFFFFFE)).1 =
      genOf 0x43557751 0x01234567 0x89ABCDEF 0x94BEE938 0xFFFFFFFF ∧
    (engineRound Config.params ⟨false, false⟩ (genOf 0 0x10 1 0xFFFFFFFF 0x7FFFFFFF)).1 =
      genOf 0xFFFFFFEF 1 0xFFFFFFFF 0xDA5E5A59 0x80000000 := by decide

/-- Vectors S-6d, S-10p and S-12dp: the other three configurations. -/
theorem test_round_variants :
    (engineRound Config.params ⟨true, false⟩ s6).1 =
      genOf 0xD1E6B788 0x0F1E2D3C 0x4B5A6978 0x71005FAF 0x81 ∧
    (engineRound Config.params ⟨false, true⟩
      (genOf 0xDEADBEEF 0xCAFEBABE 0x01234567 0x89ABCDEF 0xFFFFFFFE)).1 =
      genOf 0xCAFEBABE 0x01234567 0x89ABCDEF 0x94BEE938 0xFFFFFFFF ∧
    (engineRound Config.params ⟨true, true⟩ (genOf 0 0x10 1 0xFFFFFFFF 0x7FFFFFFF)).1 =
      genOf 0x10 1 0xFFFFFFFF 0x7FFFFFFE 0x80000000 := by decide

/-- Vectors S-5b and S-10b: the alternative reading `XOR_SCOPE = both`. -/
theorem test_round_xor_scope_both :
    (engineRound { Config.params with xorScope := .both } ⟨false, false⟩
      (genOf 0xFFFFFFFF 0xFFFFFFFF 0xFFFFFFFF 0xFFFFFFFF 0xFFFFFFFF)).2 = 0x2D2D2D2E ∧
    (engineRound { Config.params with xorScope := .both } ⟨false, false⟩
      (genOf 0xDEADBEEF 0xCAFEBABE 0x01234567 0x89ABCDEF 0xFFFFFFFE)).2 = 0xFA103691 := by decide

/-! ### The commands, one step each -/

/-- Vector K-L8 (95 section 3.2): LOAD.d.p 1, 2, 3, 4. -/
theorem test_load_state :
    (nextState (exec (.load true true 1 2 3 4) State.reset)).bind State.gen =
      some (genOf 0xB90C954E 0x5D68EA9F 0x76C35CF3 0x000F361C 0x80) := by decide +kernel

/-- K-L1 over a running generator: the old one is gone, the response is `00` (R90, 95 section 6). -/
theorem test_load_reseeds :
    nextState (exec (.load false false 0 0 0 0) (seededWith true true s6)) =
      some { seededWith false false (genOf 0xAFADC46A 0x821E1C0C 0x14A80CEC 0x31F03AEC 0x80) with
        outbox := [[0x00#8]] } := by decide +kernel

/-- Vector K-I2: the digest of `abc` (SHA-256 there), split and warmed up. -/
theorem test_init_split_and_warmup :
    warmedUp Config.params ⟨false, false⟩ (splitDigest #v[0xBA, 0x78, 0x16, 0xBF, 0x8F, 0x01, 0xCF,
      0xEA, 0x41, 0x41, 0x40, 0xDE, 0x5D, 0xAE, 0x22, 0x23, 0xB0, 0x03, 0x61, 0xA3, 0x96, 0x17,
      0x7A, 0x9C, 0xB4, 0x10, 0xFF, 0x61, 0xF2, 0x00, 0x15, 0xAD]) =
      genOf 0x36DD72B1 0x46D3F160 0x1ED338B3 0x53A9B55B 0x80 := by decide +kernel

/-- INIT of the empty seed (95 section 5.1): configuration, flag and response, whatever the digest. -/
theorem test_init_empty_seed :
    (nextState (exec (.init true false []) State.reset)).map
      (fun s => (s.cfg, s.seeded, s.outbox)) = some (⟨true, false⟩, true, [[0x00#8]]) := by decide

/-- Vector S-6 as a STEP response (95 section 5.3). -/
theorem test_step_response :
    lastResponse (exec .step (seededWith false false s6)) =
      some [0x00#8, 0x07#8, 0x9A#8, 0x55#8, 0x2A#8] := by decide

/-- STEP with `SEEDED = 0` (95 section 6, line 2). -/
theorem test_step_unseeded :
    nextState (exec .step State.reset) = some { State.reset with outbox := [[0x02#8]] } := by decide

/-- READ of K-L1's state (95 section 5.3). -/
theorem test_read_response :
    lastResponse (exec .read
      (seededWith false false (genOf 0xAFADC46A 0x821E1C0C 0x14A80CEC 0x31F03AEC 0x80))) =
      some [0x00#8, 0xAF#8, 0xAD#8, 0xC4#8, 0x6A#8, 0x82#8, 0x1E#8, 0x1C#8, 0x0C#8, 0x14#8, 0xA8#8,
        0x0C#8, 0xEC#8, 0x31#8, 0xF0#8, 0x3A#8, 0xEC#8, 0x00#8, 0x00#8, 0x00#8, 0x80#8] := by decide

/-- READ with `SEEDED = 0` (95 section 6, line 1). -/
theorem test_read_unseeded :
    nextState (exec .read State.reset) = some { State.reset with outbox := [[0x02#8]] } := by decide

/-! ### The step -/

/-- An illegal INIT does not disturb a running generator (95 section 6, line 6). -/
theorem test_illegal_init_changes_nothing :
    nextState (step ((seededWith false true s6).send [0x01#8, 0x40#8, 0x61#8])) =
      some { seededWith false true s6 with outbox := [[0x01#8]] } := by decide

/-- `03 00` on an unseeded block answers 01 (95 section 5.3). -/
theorem test_illegal_first :
    lastResponse (step (State.reset.send [0x03#8, 0x00#8])) = some [0x01#8] := by decide

/-- Reset drops what was sent and not answered, and keeps what is sent after (R156; 95 section 6,
lines 8 and 9). -/
theorem test_reset_event :
    nextState (step ((((seededWith true true s6).send [0x03#8]).assertReset).send [0x04#8])) =
      some { State.reset with inbox := [.packet [0x04#8]] } := by decide

/-- The host takes responses oldest first (R46, R155). -/
theorem test_take_response :
    ({ seededWith false false s6 with outbox := [[0x00#8], [0x02#8]] }).takeResponse =
      some ([0x00#8], { seededWith false false s6 with outbox := [[0x02#8]] }) := by decide

/-- The table's word for STEP runs as the first command after reset. -/
theorem test_with_fetch_word :
    lastResponse (step (State.reset.withFetchWord 8 0x03)) = some [0x02#8] ∧
    lastResponse (step (State.reset.withFetchWord 8 0x02)) = some [0x00#8] := by decide

/-- Two instances: the second steps, the first is untouched (R142). -/
theorem test_second_instance_steps :
    (match stepInstance 1 [seededWith false false s6, State.reset.send [0x04#8]] with
      | .next ss => some ss
      | _ => none) =
      some [seededWith false false s6, { State.reset with outbox := [[0x02#8]] }] := by decide

/-! ### The assembler (95 section 5.1, R71, R72) -/

/-- `INIT.p "abc" ; x` and `LOAD.d` with its four words. -/
theorem test_assemble_init :
    assemblePackets ['I', 'N', 'I', 'T', '.', 'p', ' ', Char.ofNat 0x22, 'a', 'b', 'c',
      Char.ofNat 0x22, ' ', ';', ' ', 'x'] =
      some [[0x01#8, 0x02#8, 0x61#8, 0x62#8, 0x63#8]] := by decide

theorem test_assemble_load :
    assembleLine ['L', 'O', 'A', 'D', '.', 'd', ' ', '0', 'x', '1', '2', '3', '4', '5', '6', '7', '8',
      ',', '0', 'x', '9', 'A', 'B', 'C', 'D', 'E', 'F', '0', ',', ' ', '0', 'x', '0', '0', '0', '0',
      '0', '0', '0', '3', ',', '0', 'x', 'F', 'F', 'F', 'F', 'F', 'F', 'F', 'F'] =
      some [.load true false 0x12345678 0x9ABCDEF0 3 0xFFFFFFFF] := by decide

theorem test_assemble_pseudo :
    assembleLine ['S', 'T', 'E', 'P', 'N', ' ', '1', '2'] = some (List.replicate 12 .step) ∧
    assembleLine ['S', 'T', 'E', 'P', 'N', ' ', '0'] = some [] ∧
    assembleLine ['S', 'T', 'A', 'T', 'E', ' ', 'h', Char.ofNat 0x27, '0', '0', Char.ofNat 0x27] =
      some [.init false false [0], .read] ∧
    assembleLine ['S', 'T', 'E', 'P', 'P'] = none := by decide

/-! ### Witnesses: hypotheses of the obligations that states and operands meet -/

/-- A seeded block with a packet and one more behind it. -/
def busy (p : Packet) : State :=
  { seededWith true false s6 with inbox := [.packet p, .packet [0x03#8]], outbox := [[0x00#8]] }

/-- A seeded block that has a reset before it. -/
def aboutToReset : State := { seededWith true false s6 with inbox := [.reset, .packet [0x04#8]] }

theorem witness_arithmeticPrimitives :
    (0 : Nat) ≤ 31 ∧ (31 : Nat) ≤ 31 ∧ (0 : Nat) < 32 ∧ (31 : Nat) < 32 := by decide

theorem witness_operandsComeFromTheirBytes :
    (0x00#8).toNat < 4 ∧ (0x03#8).toNat < 4 ∧ ([] : List Byte) ≠ [0x00#8] := by decide

theorem witness_illegalPacketsExactly :
    (busy [0x01#8, 0x04#8]).inbox = [.packet [0x01#8, 0x04#8], .packet [0x03#8]] ∧
    decode [0x01#8, 0x04#8] = .error (.reservedFlags 0x04#8) := ⟨rfl, rfl⟩

theorem witness_decodeOfEncode : Instr.wellFormed (.init false true [0xFF#8]) = true := rfl

theorem witness_encodeOfDecode :
    decode [0x01#8, 0x03#8, 0xFF#8] = .ok (.init true true [0xFF#8]) := rfl

theorem witness_collatzStepBranches : (0xFFFFFFFE#32 : Word).getLsbD 0 = false := by decide

theorem witness_oddBranchStaysOdd : (0xFFFFFFFF#32 : Word).getLsbD 0 = true := by decide

theorem witness_rotationUsesFiveLowBits :
    (0xFFFFFFF0#32 : Word).toNat % 32 = s6.s1.toNat % 32 ∧
    rotAmount Config.params (genOf 0 0xFFFFFFE0 0 0 0) = 0 := by decide

theorem witness_roundCornerCases :
    (genOf 0 0x20 0 0 0).s1.toNat % 32 = 0 ∧ (genOf 0 0 0 0 0xFFFFFFFF).c = 0xFFFFFFFF#32 ∧
    (genOf 7 0 7 0 0).s0 = (genOf 7 0 7 0 0).s2 ∧ (30 : Nat) < 31 := by decide

theorem witness_roundIsNotInjective :
    ((0x7FFFFFFF#32 : Word).getLsbD 0 = true ∧ (0x7FFFFFFF#32 : Word).toNat < 2 ^ 31) ∧
    ((0x80000000#32 : Word).getLsbD 0 = false ∧ 2 ^ 31 ≤ (0x80000000#32 : Word).toNat) := by decide

/-- For StepAdvancesOneRound, ReadReturnsTheState, LastOutputStaysInS3, ReadIsIdempotentStepIsNot. -/
theorem witness_seeded : (busy [0x03#8]).seeded = true ∧ (busy [0x03#8]).gen = some s6 ∧
    (busy [0x03#8]).gen.isSome = true := ⟨rfl, rfl, rfl⟩

theorem witness_initIsLoadOfTheDigest :
    splitDigest (Config.digest []) = ((splitDigest (Config.digest [])).1,
      (splitDigest (Config.digest [])).2.1, (splitDigest (Config.digest [])).2.2.1,
      (splitDigest (Config.digest [])).2.2.2) := rfl

theorem witness_splitTakesTheFirstSixteenBytes :
    ∀ i (h : i < 16), (Vector.replicate 32 (0#8))[i] =
      ((Vector.replicate 32 (0#8)).set 16 (1#8))[i] := by decide

/-- Both clauses of NotSeededIsRefused: an unseeded state that meets the invariant answers 02. -/
theorem witness_notSeededIsRefused :
    State.reset.seeded = false ∧ State.reset.inv = true ∧
    exec .step State.reset = .next { State.reset with outbox := State.reset.outbox ++ [[0x02#8]] } :=
  ⟨rfl, by decide, rfl⟩

theorem witness_stepRunsTheDecodedCommand :
    (busy [0x04#8]).inbox = .packet [0x04#8] :: [.packet [0x03#8]] ∧
    decode [0x04#8] = .ok .read ∧ Instr.read.wellFormed = true := ⟨rfl, rfl, rfl⟩

theorem witness_idleBlockHoldsItsState : (seededWith true true s6).inbox = [] := rfl

/-- EveryPacketGetsOneResponse: a seeded state and an unseeded one, each meeting the invariant. -/
theorem witness_everyPacketGetsOneResponse :
    ((busy [0x03#8]).inv = true ∧ (busy [0x03#8]).inbox = [.packet [0x03#8], .packet [0x03#8]]) ∧
    ((State.reset.send [0x04#8]).inv = true ∧
      (State.reset.send [0x04#8]).inbox = [.packet [0x04#8]]) := by decide

/-- The three clauses of IllegalComesBeforeNotSeeded, on an unseeded block. -/
theorem witness_illegalComesBeforeNotSeeded :
    ((State.reset.send [0xFF#8]).inbox = [.packet [0xFF#8]] ∧
      decode [0xFF#8] = .error (.unassignedOpcode 0xFF#8)) ∧
    ((State.reset.send [0x04#8]).inbox = [.packet [0x04#8]] ∧ decode [0x04#8] = .ok .read ∧
      (State.reset.send [0x04#8]).seeded = false) ∧
    ((State.reset.send [0x03#8, 0x00#8]).seeded = false ∧
      (State.reset.send [0x03#8, 0x00#8]).inbox = [.packet [0x03#8, 0x00#8]]) :=
  ⟨⟨rfl, rfl⟩, ⟨rfl, rfl, rfl⟩, rfl, rfl⟩

/-- ErrorsChangeNothing, once for each error status. -/
theorem witness_errorsChangeNothing :
    (nextState (step (busy [0x00#8]))).map State.outbox = some ((busy [0x00#8]).outbox ++ [[0x01#8]]) ∧
    (nextState (step (State.reset.send [0x03#8]))).map State.outbox = some ([] ++ [[0x02#8]]) ∧
    (0x01#8 : Byte) ≠ 0x00#8 ∧ (0x02#8 : Byte) ≠ 0x00#8 := by decide

/-- StateChangesOnlyAsListed: a state for each of its clauses, and that its step answers. -/
theorem witness_stateChangesOnlyAsListed :
    (aboutToReset.inbox = [.reset, .packet [0x04#8]] ∧ (nextState (step aboutToReset)).isSome = true) ∧
    (decode [0x01#8, 0x00#8] = .ok (.init false false []) ∧
      (nextState (step (busy [0x01#8, 0x00#8]))).isSome = true) ∧
    (decode (0x02#8 :: List.replicate 17 0) = .ok (.load false false 0 0 0 0) ∧
      (nextState (step (busy (0x02#8 :: List.replicate 17 0)))).isSome = true) ∧
    (decode [0x03#8] = .ok .step ∧ (nextState (step (busy [0x03#8]))).isSome = true) ∧
    (decode [0x04#8] = .ok .read ∧ (nextState (step (busy [0x04#8]))).isSome = true) :=
  ⟨⟨rfl, by decide⟩, ⟨rfl, by decide⟩, ⟨rfl, by decide⟩, ⟨rfl, by decide⟩, rfl, by decide⟩

/-- OnlyResetClearsSeeded and ResetDropsWhatCameBefore: a seeded state whose step unseeds it. -/
theorem witness_onlyResetClearsSeeded :
    aboutToReset.seeded = true ∧ (nextState (step aboutToReset)).map State.seeded = some false ∧
    (Instr.init true false [] ≠ .step ∧ Instr.init true false [] ≠ .read) ∧
    State.reset.seeded = false := by decide

theorem witness_resetAbandonsACommand :
    (busy [0x01#8, 0x00#8]).inbox = .packet [0x01#8, 0x00#8] :: [.packet [0x03#8]] := rfl

theorem witness_everyStepKeepsTheInvariant :
    (busy [0x03#8]).inv = true ∧ aboutToReset.inv = true ∧ State.reset.inv = true := by decide

theorem witness_runIsTheFoldOfItsPackets :
    aboutToReset.inbox = ([] : List Packet).map HostEvent.packet ++ aboutToReset.inbox ∧
    (busy [0x00#8]).inbox =
      [[0x00#8], [0x03#8]].map HostEvent.packet ++ ([] : List HostEvent) := by decide

/-- ReseedingForgetsThePast: a running block and one just out of reset, given the same packets. -/
theorem witness_reseedingForgetsThePast :
    decode [0x01#8, 0x03#8] = .ok (.init true true []) ∧ Instr.init true true [] ≠ .step ∧
    Instr.init true true [] ≠ .read ∧
    (busy [0x01#8, 0x03#8]).inbox = ([0x01#8, 0x03#8] :: [[0x03#8]]).map HostEvent.packet ∧
    ((State.reset.send [0x01#8, 0x03#8]).send [0x03#8]).inbox =
      ([0x01#8, 0x03#8] :: [[0x03#8]]).map HostEvent.packet :=
  ⟨rfl, by decide, by decide, rfl, rfl⟩

/-- LegalCommandsSucceed: a seeded state that meets the invariant; INIT on any state. -/
theorem witness_legalCommandsSucceed :
    (seededWith false true s6).inv = true ∧ (seededWith false true s6).seeded = true ∧
    Instr.init false false [] ≠ .step ∧ Instr.init false false [] ≠ .read := by decide

/-- Both forms of StreamIsTheRoundsAfterWarmup. -/
theorem witness_streamIsTheRoundsAfterWarmup :
    Instr.load true false 1 2 3 4 = .load true false 1 2 3 4 ∧
    ∃ w0 w1 w2 w3, splitDigest (Config.digest []) = (w0, w1, w2, w3) := ⟨rfl, _, _, _, _, rfl⟩

theorem witness_bootNeedsInitOrLoad :
    State.reset.seeded = false ∧ (∀ j ∈ [Instr.step, Instr.read], j = .step ∨ j = .read) ∧
    Instr.load false false 0 0 0 0 ≠ .step ∧ Instr.load false false 0 0 0 0 ≠ .read := by decide

theorem witness_instancesShareNothing :
    [State.reset, seededWith true true s6][1]? = some (seededWith true true s6) ∧
    step (seededWith true true s6) = .next (seededWith true true s6) := ⟨rfl, rfl⟩

end Sys2Proof.Tests
end

/-! PROOFS. The arithmetic primitives of R15: the facts about `mul3p1`, `shr1` and `rotl32` that the
laws of the round do not hold yet, and O1 assembled from them. -/

namespace Sys2Proof.Machine

/-- R15's other spelling of `mul3p1`: three additions and an increment, each wrapping. -/
theorem mul3p1_eq_add32 (a : Word) :
    mul3p1 Config.params a = add32 (add32 (add32 a a) a) 1#32 := by
  apply BitVec.eq_of_toNat_eq
  simp only [mul3p1_toNat, add32_toNat, BitVec.toNat_ofNat]
  omega

theorem shr1_getLsbD_top (a : Word) : (shr1 a).getLsbD 31 = false := by
  simp [shr1]

theorem rotl32_toNat (a : Word) {r : Nat} (hr : r ≤ 31) :
    (rotl32 a r).toNat = Claims.rotlNum a.toNat r := by
  obtain rfl | hpos := Nat.eq_zero_or_pos r
  · rw [rotl32_zero, Claims.rotlNum, if_pos rfl]
  · have hmod : r % 32 = r := Nat.mod_eq_of_lt (by omega)
    rw [rotl32, BitVec.toNat_rotateLeft, hmod, Nat.shiftLeft_eq, Nat.shiftRight_eq_div_pow,
      Claims.rotlNum, if_neg (by omega)]

/-- A bit either stays below bit 32 when it moves up by `r`, or comes back in at the bottom. -/
theorem rotl32_getLsbD_rotated (a : Word) {r i : Nat} (hr : r ≤ 31) (hi : i < 32) :
    (rotl32 a r).getLsbD ((i + r) % 32) = a.getLsbD i := by
  have hmod : r % 32 = r := Nat.mod_eq_of_lt (by omega)
  rw [rotl32, BitVec.getLsbD_rotateLeft, hmod]
  by_cases hwrap : i + r < 32
  · have hpos : (i + r) % 32 = i + r := Nat.mod_eq_of_lt hwrap
    have hstays : ¬ i + r < r := by omega
    simp [hpos, hstays, hwrap]
  · have hpos : (i + r) % 32 = i + r - 32 := by omega
    have hwraps : i + r - 32 < r := by omega
    have hback : 32 - r + (i + r - 32) = i := by omega
    simp [hpos, hwraps, hback]

/-- Settles O1, from one lemma for each primitive. -/
theorem arithmeticPrimitives : Obligations.ArithmeticPrimitives :=
  ⟨fun _ _ _ _ => ⟨BitVec.getLsbD_xor, BitVec.getLsbD_and⟩,
    add32_toNat,
    fun a => ⟨mul3p1_toNat a, mul3p1_eq_add32 a⟩,
    fun a => ⟨shr1_toNat a, shr1_getLsbD_top a⟩,
    fun a _ hr => ⟨rotl32_toNat a hr, fun _ hi => rotl32_getLsbD_rotated a hr hi⟩⟩

end Sys2Proof.Machine

/-! PROOFS. The big-endian byte order of R16, as numbers, and O2: `be32` and `bytesBe32` are inverse
in both directions. -/

namespace Sys2Proof

theorem bytesBe32_map_toNat (w : Word) :
    (bytesBe32 w).map BitVec.toNat =
      [w.toNat / 2 ^ 24, w.toNat / 2 ^ 16 % 2 ^ 8, w.toNat / 2 ^ 8 % 2 ^ 8, w.toNat % 2 ^ 8] := by
  have htop : w.toNat / 2 ^ 24 < 2 ^ 8 := by have := w.isLt; omega
  simp only [bytesBe32, List.map_cons, List.map_nil, BitVec.extractLsb'_toNat,
    Nat.shiftRight_eq_div_pow, Nat.mod_eq_of_lt htop, pow_zero, Nat.div_one]

/-- The bytes agree as numbers, so they agree. -/
theorem bytesBe32_be32 (b0 b1 b2 b3 : Byte) : bytesBe32 (be32 b0 b1 b2 b3) = [b0, b1, b2, b3] := by
  have h0 := b0.isLt; have h1 := b1.isLt; have h2 := b2.isLt; have h3 := b3.isLt
  apply BitVec.toNat_injective.list_map
  simp only [bytesBe32_map_toNat, be32_toNat, List.map_cons, List.map_nil, List.cons.injEq, and_true]
  omega

theorem bytesBe32_eq_iff (w : Word) (b0 b1 b2 b3 : Byte) :
    bytesBe32 w = [b0, b1, b2, b3] ↔ be32 b0 b1 b2 b3 = w := by
  constructor
  · intro h
    obtain ⟨rfl, rfl, rfl, rfl⟩ : _ ∧ _ ∧ _ ∧ _ := by simpa [bytesBe32] using h
    exact be32_of_bytes w
  · rintro rfl
    exact bytesBe32_be32 b0 b1 b2 b3

/-- Settles O2: the two numeric readings, and the inverse in both directions. -/
theorem bigEndianBytesAreInverse : Obligations.BigEndianBytesAreInverse :=
  ⟨be32_toNat, bytesBe32_map_toNat, bytesBe32_eq_iff⟩

end Sys2Proof

/-! PROOFS. The flag `SEEDED` (R27) and the reset state (R30): what a command does to the flag by what
kind of command it is, O35 assembled from that, and O36. -/

namespace Sys2Proof.Machine

/-- INIT and LOAD construct a generator whatever the state (R85). -/
theorem exec_constructs {i : Instr} (hstep : i ≠ .step) (hread : i ≠ .read) (s : State) :
    ∃ cfg g, exec i s = .next { s with
      gen := some g, cfg := cfg, seeded := true, outbox := s.outbox ++ [[0x00#8]] } := by
  obtain ⟨cfg, g, -, -, hexec⟩ | ⟨hi, -, -⟩ | ⟨_, hi, -, -⟩ | ⟨_, hi, -, -⟩ := exec_cases i s
  · exact ⟨cfg, g, hexec⟩
  · exact absurd hi (not_or.mpr ⟨hstep, hread⟩)
  · exact absurd hi hstep
  · exact absurd hi hread

/-- STEP and READ on a block that is not seeded are refused (R132). -/
theorem exec_of_not_seeded {i : Instr} (hi : i = .step ∨ i = .read) {s : State}
    (hs : s.seeded = false) :
    exec i s = .next { s with outbox := s.outbox ++ [[0x02#8]] } := by
  have hnone : s.seededGen = none := seededGen_eq_none.mpr (.inl hs)
  obtain rfl | rfl := hi
  · exact execStep_of_unseeded hnone
  · exact execRead_of_unseeded hnone

/-- No command clears `SEEDED`: INIT and LOAD set it, STEP and READ do not write it. -/
theorem exec_keeps_seeded {i : Instr} {s t : State} (hexec : exec i s = .next t)
    (hs : s.seeded = true) : t.seeded = true := by
  obtain ⟨_, _, -, -, h⟩ | ⟨-, -, h⟩ | ⟨_, -, -, h⟩ | ⟨_, -, -, h⟩ := exec_cases i s <;>
    obtain rfl := Host.Outcome.next.inj (hexec.symm.trans h)
  · rfl
  all_goals exact hs

/-- Of the four things a step can be, only a reset takes a block from `SEEDED = 1` to `SEEDED = 0`. -/
theorem inbox_eq_reset_of_step_clears_seeded {s t : State} (hstep : step s = .next t)
    (hs : s.seeded = true) (ht : t.seeded = false) : ∃ rest, s.inbox = .reset :: rest := by
  have hkept : t.seeded ≠ true := by simp [ht]
  obtain ⟨-, h⟩ | ⟨rest, hinbox, -⟩ | ⟨_, _, _, -, -, h⟩ | ⟨_, _, _, -, -, h⟩ := step_cases s
  case inr.inl => exact ⟨rest, hinbox⟩
  case inl =>
    obtain rfl := Host.Outcome.next.inj (hstep.symm.trans h)
    exact absurd hs hkept
  case inr.inr.inl =>
    obtain rfl := Host.Outcome.next.inj (hstep.symm.trans h)
    exact absurd hs hkept
  case inr.inr.inr => exact absurd (exec_keeps_seeded (h.symm.trans hstep) hs) hkept

/-- Settles O35, from what each kind of command does to `SEEDED` and from what can clear it. -/
theorem onlyResetClearsSeeded : Obligations.OnlyResetClearsSeeded :=
  ⟨rfl,
    fun s _ hstep hread =>
      have ⟨_, _, hexec⟩ := exec_constructs hstep hread s
      ⟨_, hexec, rfl⟩,
    fun _ _ hi hs => exec_of_not_seeded hi hs,
    fun _ _ => inbox_eq_reset_of_step_clears_seeded⟩

/-- Settles O36: the four fields as `State.reset` writes them. -/
theorem resetState : Obligations.ResetState := ⟨rfl, rfl, rfl, rfl⟩

end Sys2Proof.Machine

/-! PROOFS. The decoder, case by case (R62, R66 to R68): the reserved FLAGS bits, the word operands, one
lemma per opcode and per format, and from them O4 and O5. -/

namespace Sys2Proof

/-! ### The reserved FLAGS bits -/

/-- Bits 7 to 2 of the mask `0xFC` of R65's test are the ones that are set. -/
theorem getLsbD_and_reservedMask (fl : Byte) {k : Nat} (hk : k < 8) :
    (fl &&& 0xFC#8).getLsbD k = (fl.getLsbD k && decide (2 ≤ k)) := by
  have hmask : ∀ j < 8, (0xFC#8).getLsbD j = decide (2 ≤ j) := by decide
  rw [BitVec.getLsbD_and, hmask k hk]

theorem flagsLegal_iff (fl : Byte) :
    flagsLegal fl = true ↔ ∀ k, 2 ≤ k → k ≤ 7 → fl.getLsbD k = false := by
  rw [flagsLegal, beq_iff_eq]
  constructor
  · intro hzero k hlow hhigh
    have hbit := getLsbD_and_reservedMask fl (show k < 8 by omega)
    simpa [hzero, hlow] using hbit.symm
  · intro hclear
    refine BitVec.eq_of_getLsbD_eq fun k hk => ?_
    rw [getLsbD_and_reservedMask fl hk, BitVec.getLsbD_zero]
    by_cases hlow : 2 ≤ k
    · simp [hclear k hlow (by omega)]
    · simp [hlow]

/-- R68: a FLAGS byte is illegal exactly when one of its reserved bits is set. -/
theorem flagsLegal_eq_false_iff (fl : Byte) :
    flagsLegal fl = false ↔ ∃ k, 2 ≤ k ∧ k ≤ 7 ∧ fl.getLsbD k = true := by
  rw [← Bool.not_eq_true, flagsLegal_iff]
  simp

theorem flagsLegal_of_toNat_lt_four {fl : Byte} (h : fl.toNat < 4) : flagsLegal fl = true :=
  (flagsLegal_iff fl).mpr fun _ hk _ =>
    Nat.testBit_lt_two_pow (h.trans_le (Nat.pow_le_pow_right two_pos hk))

/-! ### Word operands -/

/-- The four bytes a word is read from are its own big-endian bytes (R16). -/
theorem takeWord_eq_some_iff {bs rest : List Byte} {w : Word} :
    takeWord bs = some (w, rest) ↔ bs = bytesBe32 w ++ rest := by
  constructor
  · intro h
    match bs, h with
    | b0 :: b1 :: b2 :: b3 :: _, rfl => rw [bytesBe32_be32]; rfl
  · rintro rfl
    exact takeWord_bytesBe32 w rest

/-- Four words with nothing behind them: the last remainder is the empty list. -/
theorem takeWords4_eq_some_iff {bs : List Byte} {w0 w1 w2 w3 : Word} :
    takeWords4 bs = some (w0, w1, w2, w3) ↔
      bs = bytesBe32 w0 ++ (bytesBe32 w1 ++ (bytesBe32 w2 ++ (bytesBe32 w3 ++ []))) := by
  constructor
  · intro h
    rcases h0 : takeWord bs with _ | ⟨v0, bs1⟩
    · simp [takeWords4, h0] at h
    rcases h1 : takeWord bs1 with _ | ⟨v1, bs2⟩
    · simp [takeWords4, h0, h1] at h
    rcases h2 : takeWord bs2 with _ | ⟨v2, bs3⟩
    · simp [takeWords4, h0, h1, h2] at h
    rcases h3 : takeWord bs3 with _ | ⟨v3, _ | ⟨b, bs4⟩⟩ <;>
      simp only [takeWords4, h0, h1, h2, h3, reduceCtorEq, Option.some.injEq, Prod.mk.injEq] at h
    obtain ⟨rfl, rfl, rfl, rfl⟩ := h
    rw [takeWord_eq_some_iff.mp h0, takeWord_eq_some_iff.mp h1, takeWord_eq_some_iff.mp h2,
      takeWord_eq_some_iff.mp h3]
  · rintro rfl
    simp only [takeWords4, takeWord_bytesBe32]

theorem takeWords4_sixteen (b0 b1 b2 b3 b4 b5 b6 b7 b8 b9 b10 b11 b12 b13 b14 b15 : Byte) :
    takeWords4 [b0, b1, b2, b3, b4, b5, b6, b7, b8, b9, b10, b11, b12, b13, b14, b15] =
      some (be32 b0 b1 b2 b3, be32 b4 b5 b6 b7, be32 b8 b9 b10 b11, be32 b12 b13 b14 b15) := rfl

theorem takeWords4_eq_none_iff {bs : List Byte} : takeWords4 bs = none ↔ bs.length ≠ 16 := by
  constructor
  · intro hnone hlen
    match bs, hlen with
    | [_, _, _, _, _, _, _, _, _, _, _, _, _, _, _, _], _ => cases hnone
  · intro hlen
    rcases h : takeWords4 bs with _ | ⟨w0, w1, w2, w3⟩
    · rfl
    · exact absurd (congrArg List.length (takeWords4_eq_some_iff.mp h)) hlen

/-! ### The formats: what each reads, and when it fails -/

theorem decodeInit_of_legal {fl : Byte} (hfl : flagsLegal fl = true) (seed : List Byte) :
    decodeInit (fl :: seed) = .ok (.init (flagD fl) (flagP fl) seed) := if_pos hfl

theorem decodeLoad_of_legal {fl : Byte} (hfl : flagsLegal fl = true) {bs : List Byte}
    {w0 w1 w2 w3 : Word} (hbs : takeWords4 bs = some (w0, w1, w2, w3)) :
    decodeLoad (fl :: bs) = .ok (.load (flagD fl) (flagP fl) w0 w1 w2 w3) := by
  simp only [decodeLoad, hbs, if_pos hfl]

theorem decodeInit_fails_iff (bs : List Byte) :
    (∃ why, decodeInit bs = .error why) ↔
      bs = [] ∨ ∃ fl seed, bs = fl :: seed ∧ flagsLegal fl = false := by
  cases bs with
  | nil => simp [decodeInit]
  | cons fl seed => by_cases hfl : flagsLegal fl = true <;> simp [decodeInit, hfl]

theorem decodeLoad_fails_iff (bs : List Byte) :
    (∃ why, decodeLoad bs = .error why) ↔
      bs.length ≠ 17 ∨ ∃ fl operands, bs = fl :: operands ∧ flagsLegal fl = false := by
  cases bs with
  | nil => simp [decodeLoad]
  | cons fl operands =>
    rcases h : takeWords4 operands with _ | ⟨w0, w1, w2, w3⟩
    · have hlen := takeWords4_eq_none_iff.mp h
      simp [decodeLoad, h, hlen]
    · have hlen : operands.length = 16 := by
        by_contra hne
        simp [takeWords4_eq_none_iff.mpr hne] at h
      by_cases hfl : flagsLegal fl = true <;> simp [decodeLoad, h, hlen, hfl]

theorem decodeBare_fails_iff (i : Instr) (bs : List Byte) :
    (∃ why, decodeBare i bs = .error why) ↔ bs ≠ [] := by
  cases bs <;> simp [decodeBare]

/-! ### One equation per opcode -/

theorem decode_initOpcode (bs : List Byte) : decode (0x01#8 :: bs) = decodeInit bs := rfl

theorem decode_loadOpcode (bs : List Byte) : decode (0x02#8 :: bs) = decodeLoad bs := rfl

theorem decode_stepOpcode (bs : List Byte) : decode (0x03#8 :: bs) = decodeBare .step bs := rfl

theorem decode_readOpcode (bs : List Byte) : decode (0x04#8 :: bs) = decodeBare .read bs := rfl

theorem decode_unassignedOpcode {op : Byte} (h : op.toNat = 0 ∨ 5 ≤ op.toNat) (bs : List Byte) :
    decode (op :: bs) = .error (.unassignedOpcode op) := by
  have h1 : op ≠ 0x01#8 := by rintro rfl; simp at h
  have h2 : op ≠ 0x02#8 := by rintro rfl; simp at h
  have h3 : op ≠ 0x03#8 := by rintro rfl; simp at h
  have h4 : op ≠ 0x04#8 := by rintro rfl; simp at h
  simp [decode, h1, h2, h3, h4]

/-- The rows of R65's table: a first byte is one of the four opcodes, or unassigned. -/
theorem opcode_cases (op : Byte) :
    (op.toNat = 0 ∨ 5 ≤ op.toNat) ∨
      op = 0x01#8 ∨ op = 0x02#8 ∨ op = 0x03#8 ∨ op = 0x04#8 := by
  bv_omega

/-! ### O4 and O5 -/

theorem decode_init_packet {fl : Byte} (h : fl.toNat < 4) (seed : List Byte) :
    decode (0x01#8 :: fl :: seed) = .ok (.init (fl.getLsbD 0) (fl.getLsbD 1) seed) := by
  rw [decode_initOpcode, decodeInit_of_legal (flagsLegal_of_toNat_lt_four h), flagD, flagP]

theorem decode_load_packet {fl : Byte} (h : fl.toNat < 4) {bs : List Byte} {w0 w1 w2 w3 : Word}
    (hbs : takeWords4 bs = some (w0, w1, w2, w3)) :
    decode (0x02#8 :: fl :: bs) = .ok (.load (fl.getLsbD 0) (fl.getLsbD 1) w0 w1 w2 w3) := by
  rw [decode_loadOpcode, decodeLoad_of_legal (flagsLegal_of_toNat_lt_four h) hbs, flagD, flagP]

/-- Settles O4: what LOAD and INIT packets decode to; an INIT carries its seed, so different seeds give
different commands. -/
theorem operandsComeFromTheirBytes : Obligations.OperandsComeFromTheirBytes := by
  refine ⟨?_, fun fl seed h => decode_init_packet h seed, ?_⟩
  · intro fl b2 b3 b4 b5 b6 b7 b8 b9 b10 b11 b12 b13 b14 b15 b16 b17 h
    exact decode_load_packet h (takeWords4_sixteen ..)
  · intro fl fl' seed seed' h h' hne
    simp [decode_init_packet h, decode_init_packet h', hne]

/-- Settles O5: a first byte is an opcode or unassigned, and each opcode's format says when it fails;
the block's answer is the step's own rule for an illegal packet. -/
theorem illegalPacketsExactly : Obligations.IllegalPacketsExactly := by
  refine ⟨fun p => ?_, fun s p rest why hinbox hd => Machine.step_illegal hinbox hd⟩
  cases p with
  | nil => simp [decode]
  | cons op bs =>
    obtain hop | rfl | rfl | rfl | rfl := opcode_cases op
    · simp [decode_unassignedOpcode hop, hop]
    · simp [decode_initOpcode, decodeInit_fails_iff, flagsLegal_eq_false_iff]
    · simp [decode_loadOpcode, decodeLoad_fails_iff, flagsLegal_eq_false_iff]
    · simp [decode_stepOpcode, decodeBare_fails_iff]
    · simp [decode_readOpcode, decodeBare_fails_iff]

end Sys2Proof

/-! PROOFS. One response for each packet (R63, R64), and O31: what the step of a legal packet is, and the
two kinds of block the invariant leaves. -/

namespace Sys2Proof.Machine

theorem step_legal {s : State} {p : Packet} {rest : List HostEvent} {i : Instr}
    (h : s.inbox = .packet p :: rest) (hd : decode p = .ok i) :
    step s = exec i { s with inbox := rest } := by
  simp [step, nextEvent_cons h, hd]

/-- R29: under the invariant a block is unseeded, or seeded with words that hold a value. -/
theorem unseeded_or_gen_of_inv {s : State} (hinv : s.inv = true) :
    s.seeded = false ∨ s.seeded = true ∧ ∃ g, s.gen = some g := by
  obtain ⟨hseeded, -, -⟩ := (inv_iff s).mp hinv
  cases hs : s.seeded with
  | false => exact .inl rfl
  | true => exact .inr ⟨rfl, Option.isSome_iff_exists.mp (hseeded.symm.trans hs)⟩

/-- Settles O31, by what the packet decodes to, and for STEP and READ by whether the block is seeded. -/
theorem everyPacketGetsOneResponse : Obligations.EveryPacketGetsOneResponse := by
  intro s p rest hinv hinbox
  rcases hd : decode p with why | i
  · exact ⟨_, _, step_illegal hinbox hd, rfl, rfl, rfl⟩
  rw [step_legal hinbox hd]
  cases i with
  | init d q seed => exact ⟨_, _, rfl, rfl, rfl, rfl⟩
  | load d q w0 w1 w2 w3 => exact ⟨_, _, rfl, rfl, rfl, rfl⟩
  | step =>
    obtain hs | ⟨hs, g, hg⟩ := unseeded_or_gen_of_inv hinv
    · exact ⟨_, _, exec_of_not_seeded (.inl rfl) hs, rfl, rfl, .inl ⟨hs, rfl⟩⟩
    · exact ⟨_, _, execStep_of_seeded (seededGen_eq_some.mpr ⟨hs, hg⟩), rfl, rfl,
        .inr ⟨hs, rfl, g, hg, rfl⟩⟩
  | read =>
    obtain hs | ⟨hs, g, hg⟩ := unseeded_or_gen_of_inv hinv
    · exact ⟨_, _, exec_of_not_seeded (.inr rfl) hs, rfl, rfl, .inl ⟨hs, rfl⟩⟩
    · exact ⟨_, _, execRead_of_seeded (seededGen_eq_some.mpr ⟨hs, hg⟩), rfl, rfl,
        .inr ⟨hs, rfl, g, hg, rfl⟩⟩

end Sys2Proof.Machine

/-! PROOFS. The round on natural numbers (R101 to R108): each step of `engineRound` against the second
writing of it in `Claims`, and then any number of rounds (R84). -/

namespace Sys2Proof.Machine

open Claims

/-- R102's test: bit 0 of a word is its parity. -/
theorem getLsbD_zero_iff_odd (a : Word) : a.getLsbD 0 = true ↔ a.toNat % 2 = 1 :=
  (Bool.eq_iff_iff.mp (Nat.testBit_zero a.toNat)).trans decide_eq_true_iff

theorem collatz_toNat (mixed : Word) :
    (collatz Config.params mixed).toNat = collatzNum .oddOnly mixed.toNat := by
  have hbit := getLsbD_zero_iff_odd mixed
  obtain heven | hodd := Nat.mod_two_eq_zero_or_one mixed.toNat
  · rw [collatz, if_neg (by rw [hbit]; omega), collatzNum, if_pos heven]
    exact shr1_toNat mixed
  · rw [collatz, if_pos (hbit.mpr hodd), BitVec.toNat_xor, mul3p1_toNat, collatzNum,
      if_neg (by omega)]
    rfl

theorem premix_toNat (cfg : Cfg) (g : GeneratorState) :
    (premix cfg g).toNat = if cfg.d then g.s0.toNat else g.s0.toNat ^^^ g.s2.toNat := by
  rw [premix, apply_ite BitVec.toNat, BitVec.toNat_xor]

theorem rotAmount_le (g : GeneratorState) : rotAmount Config.params g ≤ 31 := by
  rw [rotAmount_eq]
  omega

theorem roundOutput_toNat (cfg : Cfg) (g : GeneratorState) :
    (roundOutput Config.params cfg g).toNat = outputNum cfg.d (nums g) := by
  have hrot : rotAmount Config.params g = g.s1.toNat &&& 0x1F := BitVec.toNat_and ..
  rw [roundOutput, BitVec.toNat_xor, add32_toNat, add32_toNat, rotl32_toNat _ (rotAmount_le g),
    collatz_toNat, premix_toNat, nextCounter, add32_toNat, hrot]
  rfl

theorem nums_engineRound (cfg : Cfg) (g : GeneratorState) :
    nums (engineRound Config.params cfg g).1 = roundNum cfg.d cfg.p (nums g) := by
  have hs0 : (engineRound Config.params cfg g).1.s0.toNat =
      if cfg.p then g.s1.toNat else g.s1.toNat ^^^ g.s3.toNat := by
    rw [engineRound, shiftIn, apply_ite BitVec.toNat, BitVec.toNat_xor]
  have hc : (engineRound Config.params cfg g).1.c.toNat = (g.c.toNat + 1) % 2 ^ 32 :=
    add32_toNat ..
  rw [nums, hs0, hc, engineRound_s1, engineRound_s2, engineRound_s3, engineRound,
    roundOutput_toNat]
  rfl

theorem nums_iterRound (cfg : Cfg) (n : Nat) (g : GeneratorState) :
    nums (iterRound Config.params cfg n g) = (roundNum cfg.d cfg.p)^[n] (nums g) := by
  induction n with
  | zero => rfl
  | succ n ih => rw [iterRound_succ, nums_engineRound, ih, Function.iterate_succ_apply']

/-- R25, R104: every round adds 1 to the counter. -/
theorem iterRound_c (P : Params) (cfg : Cfg) (n : Nat) (g : GeneratorState) :
    (iterRound P cfg n g).c = g.c + BitVec.ofNat 32 n := by
  induction n with
  | zero => rw [iterRound, BitVec.add_zero]
  | succ n ih => rw [iterRound_succ, engineRound_c, ih, BitVec.ofNat_add, BitVec.add_assoc]

end Sys2Proof.Machine

/-! PROOFS. The KeyScheduler (R82 to R89): the warm-up of four words, and from it O21; the split of the
digest, O22; and the commands that answer OK, O28. -/

namespace Sys2Proof.Machine

open Claims

theorem nums_warmedUp (cfg : Cfg) (w0 w1 w2 w3 : Word) :
    nums (warmedUp Config.params cfg (w0, w1, w2, w3)) =
      (roundNum cfg.d cfg.p)^[128] (w0.toNat, w1.toNat, w2.toNat, w3.toNat, 0) :=
  nums_iterRound cfg 128 (loadedGenerator Config.params w0 w1 w2 w3)

theorem warmedUp_c (cfg : Cfg) (w : Word × Word × Word × Word) :
    (warmedUp Config.params cfg w).c = 0x80#32 :=
  iterRound_c Config.params cfg 128 _

/-- Settles O21: the generator is the warm-up of the four words, which reads no state. -/
theorem loadRunsTheWarmup : Obligations.LoadRunsTheWarmup := fun d p w0 w1 w2 w3 =>
  ⟨warmedUp Config.params (cfgOfFlags d p) (w0, w1, w2, w3), nums_warmedUp .., warmedUp_c ..,
    fun _ => rfl⟩

/-- Settles O22: the split's equation names the only bytes it reads. -/
theorem splitTakesTheFirstSixteenBytes : Obligations.SplitTakesTheFirstSixteenBytes := by
  refine ⟨fun _ => rfl, fun dg dg' hagree => ?_⟩
  simp [splitDigest, hagree]

/-- Of the four things a command can do, a block whose words are loaded rules out the refusal. -/
theorem exec_succeeds_of_seededGen {s : State} {g : GeneratorState} (hg : s.seededGen = some g)
    (i : Instr) :
    ∃ t payload, exec i s = .next t ∧ t.outbox = s.outbox ++ [0x00#8 :: payload] := by
  obtain ⟨_, _, -, -, hexec⟩ | ⟨-, hnone, -⟩ | ⟨_, -, -, hexec⟩ | ⟨_, -, -, hexec⟩ := exec_cases i s
  · exact ⟨_, _, hexec, rfl⟩
  · cases hg.symm.trans hnone
  · exact ⟨_, _, hexec, rfl⟩
  · exact ⟨_, _, hexec, rfl⟩

/-- Settles O28: INIT and LOAD construct a generator on any block, and under the invariant a seeded
block has words. -/
theorem legalCommandsSucceed : Obligations.LegalCommandsSucceed := by
  constructor
  · intro s i hstep hread
    obtain ⟨_, _, hexec⟩ := exec_constructs hstep hread s
    exact ⟨_, hexec, rfl⟩
  · intro s i hinv hs
    obtain hunseeded | ⟨-, g, hg⟩ := unseeded_or_gen_of_inv hinv
    · cases hs.symm.trans hunseeded
    · exact exec_succeeds_of_seededGen (seededGen_eq_some.mpr ⟨hs, hg⟩) i

end Sys2Proof.Machine

/-! PROOFS. The StateEngine (R100 to R116): the round as a whole, O11; its Collatz step on each branch,
O12; its rotation amount, O14; and the stream of a lifetime, O43. -/

namespace Sys2Proof.Machine

open Claims

/-! ### O11: the round -/

/-- Settles O11: the new state and the output as numbers, and step 6's `s3 <- new`. -/
theorem roundIsTheRule : Obligations.RoundIsTheRule := fun cfg g =>
  ⟨nums_engineRound cfg g, roundOutput_toNat cfg g, (engineRound_s3 Config.params cfg g).symm⟩

/-! ### O12: the Collatz step -/

theorem collatz_of_odd (P : Params) {mixed : Word} (h : mixed.getLsbD 0 = true) :
    collatz P mixed = mul3p1 P mixed ^^^ P.xorConst := if_pos h

theorem collatz_oddOnly_of_even {mixed : Word} (h : mixed.getLsbD 0 = false) :
    collatz Config.params mixed = shr1 mixed := if_neg (ne_true_of_eq_false h)

theorem collatz_both_of_even {mixed : Word} (h : mixed.getLsbD 0 = false) :
    collatz { Config.params with xorScope := .both } mixed = shr1 mixed ^^^ Config.params.xorConst :=
  if_neg (ne_true_of_eq_false h)

/-- An odd word takes the same step under either reading of `XOR_SCOPE` (R11). -/
theorem collatz_both_of_odd {mixed : Word} (h : mixed.getLsbD 0 = true) :
    collatz { Config.params with xorScope := .both } mixed = collatz Config.params mixed := by
  rw [collatz_of_odd _ h, collatz_of_odd _ h]
  rfl

theorem collatzNum_both_of_odd {m : Nat} (h : m % 2 = 1) :
    collatzNum .both m = collatzNum .oddOnly m := by
  simp [collatzNum, h]

theorem collatz_both_toNat (mixed : Word) :
    (collatz { Config.params with xorScope := .both } mixed).toNat =
      collatzNum .both mixed.toNat := by
  have hbit := getLsbD_zero_iff_odd mixed
  cases h : mixed.getLsbD 0 with
  | true => rw [collatz_both_of_odd h, collatz_toNat, collatzNum_both_of_odd (hbit.mp h)]
  | false =>
    have heven : mixed.toNat % 2 = 0 := by
      rw [h] at hbit
      simpa using hbit
    rw [collatz_both_of_even h, BitVec.toNat_xor, shr1_toNat, collatzNum, if_pos heven]
    rfl

/-- Settles O12: the step as a number under either reading, and on the even branch a halved word. -/
theorem collatzStepBranches : Obligations.CollatzStepBranches := by
  refine ⟨collatz_toNat, collatz_both_toNat, fun mixed heven => ?_⟩
  rw [collatz_oddOnly_of_even heven]
  exact shr1_getLsbD_top mixed

/-! ### O14: the rotation amount -/

/-- `s1` is read by step 3 alone among the steps that make the output (R103). -/
theorem engineRound_output_congr_rotAmount (P : Params) (cfg : Cfg) (g : GeneratorState) {a : Word}
    (h : rotAmount P { g with s1 := a } = rotAmount P g) :
    (engineRound P cfg { g with s1 := a }).2 = (engineRound P cfg g).2 := by
  rw [engineRound_output, engineRound_output, h]
  rfl

/-- Settles O14: the output's equation, the amount as a number, and that the output reads of `s1` the
amount only. -/
theorem rotationUsesFiveLowBits : Obligations.RotationUsesFiveLowBits := by
  refine ⟨engineRound_output Config.params, fun g => ⟨rotAmount_eq g, rotAmount_le g⟩,
    fun cfg g a ha => engineRound_output_congr_rotAmount _ cfg g ?_, fun g hzero t => ?_⟩
  · rw [rotAmount_eq, rotAmount_eq, ha]
  · rw [hzero, rotl32_zero]

/-! ### O43: the stream of a lifetime -/

theorem runInstrs_cons {i : Instr} {s t : State} (h : exec i s = .next t) (is : List Instr) :
    runInstrs (i :: is) s = runInstrs is t := by
  simp only [runInstrs, h]

theorem runInstrs_congr_head {i j : Instr} {s : State} (h : exec i s = exec j s) (is : List Instr) :
    runInstrs (i :: is) s = runInstrs (j :: is) s := by
  simp only [runInstrs, h]

/-- The response to a STEP that comes `k` rounds after `g` (R115). -/
def stepResponse (cfg : Cfg) (g : GeneratorState) (k : Nat) : Packet :=
  0x00#8 :: bytesBe32 (engineRound Config.params cfg (iterRound Config.params cfg k g)).2

theorem stepResponse_succ (cfg : Cfg) (g : GeneratorState) (k : Nat) :
    stepResponse cfg g (k + 1) = stepResponse cfg (engineRound Config.params cfg g).1 k := rfl

theorem stepResponse_iterRound (cfg : Cfg) (g : GeneratorState) (m k : Nat) :
    stepResponse cfg (iterRound Config.params cfg m g) k = stepResponse cfg g (m + k) := by
  rw [stepResponse, stepResponse, iterRound_add]

/-- The first STEP's response, and then the responses from the state that STEP leaves. -/
theorem map_stepResponse_range_succ (cfg : Cfg) (g : GeneratorState) (n : Nat) :
    (List.range (n + 1)).map (stepResponse cfg g) =
      stepResponse cfg g 0 ::
        (List.range n).map (stepResponse cfg (engineRound Config.params cfg g).1) := by
  rw [List.range_succ_eq_map, List.map_cons, List.map_map]
  rfl

/-- A STEP leaves the block seeded, with the generator it wrote. -/
theorem seededGen_respondOk_setGen {s : State} (hs : s.seeded = true) (payload : List Byte)
    (g : GeneratorState) : (respondOk payload (s.setGen g)).seededGen = some g :=
  seededGen_eq_some.mpr ⟨hs, rfl⟩

/-- `n` STEPs on a seeded block: `n` rounds, the output of each in a response, nothing else changed. -/
theorem runInstrs_replicate_step (n : Nat) (s : State) (g : GeneratorState)
    (hg : s.seededGen = some g) :
    runInstrs (List.replicate n .step) s = .next { s with
      gen := some (iterRound Config.params s.cfg n g),
      outbox := s.outbox ++ (List.range n).map (stepResponse s.cfg g) } := by
  induction n generalizing s g with
  | zero =>
    obtain ⟨-, hgen⟩ := seededGen_eq_some.mp hg
    simp [runInstrs, iterRound, ← hgen]
  | succ n ih =>
    obtain ⟨hseeded, -⟩ := seededGen_eq_some.mp hg
    rw [List.replicate_succ, runInstrs_cons (i := .step) (execStep_of_seeded hg),
      ih _ _ (seededGen_respondOk_setGen hseeded ..), map_stepResponse_range_succ, respondOk_outbox,
      List.append_assoc]
    rfl

/-- INIT of a seed does what LOAD of its digest's four words does (R82, R86, R87). -/
theorem exec_init_of_splitDigest (d p : Bool) {seed : List Byte} {w0 w1 w2 w3 : Word}
    (h : splitDigest (Config.digest seed) = (w0, w1, w2, w3)) (s : State) :
    exec (.init d p seed) s = exec (.load d p w0 w1 w2 w3) s := by
  simp only [exec, execInit, execLoad, seedWords, h]

/-- A lifetime: LOAD, and `n` STEPs from the generator the warm-up leaves. -/
theorem runInstrs_load_replicate_step (d p : Bool) (w0 w1 w2 w3 : Word) (n : Nat) (s : State) :
    runInstrs (.load d p w0 w1 w2 w3 :: List.replicate n .step) s = .next { s with
      gen := some (iterRound Config.params (cfgOfFlags d p) (128 + n)
        (loadedGenerator Config.params w0 w1 w2 w3)),
      cfg := cfgOfFlags d p, seeded := true,
      outbox := s.outbox ++ [0x00#8] :: (List.range n).map fun k =>
        stepResponse (cfgOfFlags d p) (loadedGenerator Config.params w0 w1 w2 w3) (128 + k) } := by
  have hload : exec (.load d p w0 w1 w2 w3) s =
      .next (respondOk [] (ksLoad Config.params (cfgOfFlags d p) (w0, w1, w2, w3) s)) := rfl
  rw [runInstrs_cons hload, runInstrs_replicate_step n _ _ (seededGen_eq_some.mpr ⟨rfl, rfl⟩),
    iterRound_add]
  simp only [← stepResponse_iterRound, respondOk_outbox, ksLoad_outbox, List.append_assoc]
  rfl

/-- Settles O43: INIT runs as the LOAD of its digest's words, and the STEPs after a LOAD are the rounds
after its warm-up. -/
theorem streamIsTheRoundsAfterWarmup : Obligations.StreamIsTheRoundsAfterWarmup := by
  intro s i d p w0 w1 w2 w3 n hi
  have hexec : exec i s = exec (.load d p w0 w1 w2 w3) s := by
    obtain rfl | ⟨seed, rfl, hsplit⟩ := hi
    · rfl
    · exact exec_init_of_splitDigest d p hsplit s
  refine ⟨_, _, (runInstrs_congr_head hexec _).trans (runInstrs_load_replicate_step ..), rfl, ?_, rfl⟩
  have hzero : (loadedGenerator Config.params w0 w1 w2 w3).c = 0#32 := rfl
  rw [iterRound_c, hzero, BitVec.zero_add, BitVec.toNat_ofNat]

end Sys2Proof.Machine

/-! PROOFS. The two errors (R131 to R136): whoever answers an error status has done nothing else, O33;
who answers `E_NOTSEEDED`, O27; and that `E_ILLEGAL` is decided first, O32. -/

namespace Sys2Proof.Machine

/-- Of the four things a command can do, only the refusal of an unseeded STEP or READ answers an error
status, and it writes nothing but that answer. -/
theorem exec_answers_error {i : Instr} {s t : State} {code : Byte} (hexec : exec i s = .next t)
    (hout : t.outbox = s.outbox ++ [[code]]) (hcode : code ≠ 0x00#8) :
    (i = .step ∨ i = .read) ∧ s.seededGen = none ∧
      t = { s with outbox := s.outbox ++ [[code]] } := by
  obtain ⟨_, _, -, -, h⟩ | ⟨hi, hnone, h⟩ | ⟨_, -, -, h⟩ | ⟨_, -, -, h⟩ := exec_cases i s <;>
    obtain rfl := Host.Outcome.next.inj (hexec.symm.trans h)
  case inr.inl => exact ⟨hi, hnone, congrArg (fun out => { s with outbox := out }) hout⟩
  all_goals
    have hstatus := (List.cons.inj (List.singleton_inj.mp (List.append_cancel_left hout))).1
    exact absurd hstatus.symm hcode

/-- Under the invariant, no generator to be had means `SEEDED = 0` (R29). -/
theorem not_seeded_of_seededGen_eq_none {s : State} (hinv : s.inv = true)
    (hnone : s.seededGen = none) : s.seeded = false := by
  obtain hs | ⟨hs, g, hg⟩ := unseeded_or_gen_of_inv hinv
  · exact hs
  · cases hnone.symm.trans (seededGen_eq_some.mpr ⟨hs, hg⟩)

/-- Settles O27: STEP and READ refuse an unseeded block, and an answer of 02 comes from nothing else. -/
theorem notSeededIsRefused : Obligations.NotSeededIsRefused := by
  refine ⟨fun s hs => ⟨exec_of_not_seeded (.inl rfl) hs, exec_of_not_seeded (.inr rfl) hs⟩, ?_⟩
  intro s t i hinv hexec hout
  obtain ⟨hi, hnone, -⟩ := exec_answers_error hexec hout (by decide)
  exact ⟨hi, not_seeded_of_seededGen_eq_none hinv hnone⟩

/-- Settles O33: an illegal packet and a refused command each append their answer and write no other
field. -/
theorem errorsChangeNothing : Obligations.ErrorsChangeNothing := by
  intro s t p rest code hinbox hstep hout hcode
  rcases hd : decode p with why | i
  · obtain rfl := Host.Outcome.next.inj (hstep.symm.trans (step_illegal hinbox hd))
    exact congrArg (fun out => { s with inbox := rest, outbox := out }) hout
  · have hexec := (step_legal hinbox hd).symm.trans hstep
    obtain ⟨-, -, ht⟩ := exec_answers_error hexec hout hcode
    exact ht

/-- An illegal packet is answered 01 before any state is read (R131). -/
theorem step_answers_illegal {s : State} {p : Packet} {rest : List HostEvent} {why : Illegal}
    (hinbox : s.inbox = .packet p :: rest) (hd : decode p = .error why) :
    ∃ t, step s = .next t ∧ t.outbox = s.outbox ++ [[0x01#8]] :=
  ⟨_, step_illegal hinbox hd, rfl⟩

theorem step_answers_notSeeded {s : State} {p : Packet} {rest : List HostEvent} {i : Instr}
    (hinbox : s.inbox = .packet p :: rest) (hd : decode p = .ok i) (hi : i = .step ∨ i = .read)
    (hs : s.seeded = false) :
    ∃ t, step s = .next t ∧ t.outbox = s.outbox ++ [[0x02#8]] :=
  ⟨_, (step_legal hinbox hd).trans (exec_of_not_seeded hi hs), rfl⟩

/-- Settles O32: decoding decides which of the two answers is given, and `03 00` does not decode. -/
theorem illegalComesBeforeNotSeeded : Obligations.IllegalComesBeforeNotSeeded := by
  refine ⟨fun _ _ _ _ => step_answers_illegal, fun s p rest hinbox hd hs => ?_, ?_⟩
  · obtain hd | hd := hd
    · exact step_answers_notSeeded hinbox hd (.inl rfl) hs
    · exact step_answers_notSeeded hinbox hd (.inr rfl) hs
  · have htrailing : decode [0x03#8, 0x00#8] = .error .trailingBytes := decode_stepOpcode [0x00#8]
    exact fun _ _ _ hinbox => step_answers_illegal hinbox htrailing

end Sys2Proof.Machine

/-! PROOFS. Reset and the packets round it (R46, R156), and O37: what the host sends queues up behind the
reset it has asserted. -/

namespace Sys2Proof.Machine

/-- What the host sends is taken after all that was sent before, in the order sent (R46). -/
theorem foldl_send_inbox (s : State) (ps : List Packet) :
    (ps.foldl (fun t p => t.send p) s).inbox = s.inbox ++ ps.map .packet := by
  induction ps generalizing s with
  | nil => exact (List.append_nil _).symm
  | cons p ps ih => exact (ih (s.send p)).trans (List.append_assoc s.inbox [.packet p] _)

/-- Settles O37: the reset's own step, the queue behind an asserted reset, and R27 for `SEEDED`. -/
theorem resetDropsWhatCameBefore : Obligations.ResetDropsWhatCameBefore :=
  ⟨fun _ _ hinbox =>
      ⟨_, step_reset hinbox, rfl, rfl, rfl, rfl, Nat.le_refl _, fun _ hr => hr⟩,
    fun s ps => foldl_send_inbox s.assertReset ps,
    fun _ _ => inbox_eq_reset_of_step_clears_seeded,
    rfl, rfl, rfl⟩

end Sys2Proof.Machine

/-! PROOFS. The boot order (R158): a run cut at its commands, the run of early STEPs and READs, what an
INIT or LOAD constructs, and O45 from the three. -/

namespace Sys2Proof.Machine

theorem runInstrs_append {is : List Instr} {s t : State} (h : runInstrs is s = .next t)
    (js : List Instr) : runInstrs (is ++ js) s = runInstrs js t := by
  induction is generalizing s with
  | nil => rw [List.nil_append, Host.Outcome.next.inj h]
  | cons i is ih =>
    cases hexec : exec i s with
    | next u =>
      rw [List.cons_append, runInstrs_cons hexec]
      exact ih ((runInstrs_cons hexec is).symm.trans h)
    | fault f => cases f
    | refused r => simp [runInstrs, hexec] at h

theorem runInstrs_singleton {i : Instr} {s t : State} (h : exec i s = .next t) :
    runInstrs [i] s = .next t := runInstrs_cons h []

/-- Each STEP or READ on an unseeded block is refused and leaves it unseeded for the next (R132). -/
theorem runInstrs_of_not_seeded {is : List Instr} (his : ∀ j ∈ is, j = .step ∨ j = .read) {s : State}
    (hs : s.seeded = false) :
    runInstrs is s = .next { s with outbox := s.outbox ++ is.map (fun _ => [0x02#8]) } := by
  induction is generalizing s with
  | nil => simp [runInstrs]
  | cons j js ih =>
    obtain ⟨hj, hjs⟩ := List.forall_mem_cons.mp his
    rw [runInstrs_cons (exec_of_not_seeded hj hs), ih hjs (by exact hs), List.append_assoc]
    rfl

/-- The configuration and the generator that an INIT or LOAD writes are its own: one pair for all
states (R85). -/
theorem exec_constructs_same {i : Instr} (hstep : i ≠ .step) (hread : i ≠ .read) :
    ∃ cfg g, ∀ s : State, exec i s = .next { s with
      gen := some g, cfg := cfg, seeded := true, outbox := s.outbox ++ [[0x00#8]] } := by
  cases i with
  | init d p seed => exact ⟨_, _, fun _ => rfl⟩
  | load d p w0 w1 w2 w3 => exact ⟨_, _, fun _ => rfl⟩
  | step => exact absurd rfl hstep
  | read => exact absurd rfl hread

/-- Settles O45: the refusals leave the registers alone, and the INIT or LOAD behind them does not read
what state it finds. -/
theorem bootNeedsInitOrLoad : Obligations.BootNeedsInitOrLoad := by
  intro s is i hs his hstep hread
  have hrefused := runInstrs_of_not_seeded his hs
  obtain ⟨_, _, hexec⟩ := exec_constructs_same hstep hread
  exact ⟨hrefused, _, _, (runInstrs_append hrefused [i]).trans (runInstrs_singleton (hexec _)),
    hexec s, rfl, rfl, rfl, rfl⟩

end Sys2Proof.Machine

/-! PROOFS. The decoder and the encoder are inverse to each other (R66, R71): one fact for each format
about the operands it reads, O7 and O8 from them, O6 against the table of R65, and O3. -/

namespace Sys2Proof

theorem decodeInit_eq_ok_iff {bs : List Byte} {i : Instr} :
    decodeInit bs = .ok i ↔ ∃ d p seed, i = .init d p seed ∧ bs = flagsByte d p :: seed := by
  constructor
  · intro h
    cases bs with
    | nil => cases h
    | cons fl seed =>
      by_cases hfl : flagsLegal fl = true
      · rw [decodeInit_of_legal hfl] at h
        cases h
        exact ⟨_, _, _, rfl, by rw [flagsByte_of_legal fl hfl]⟩
      · simp [decodeInit, hfl] at h
  · rintro ⟨d, p, seed, rfl, rfl⟩
    rw [decodeInit_of_legal (flagsLegal_flagsByte d p), flagD_flagsByte, flagP_flagsByte]

theorem decodeLoad_eq_ok_iff {bs : List Byte} {i : Instr} :
    decodeLoad bs = .ok i ↔ ∃ d p w0 w1 w2 w3, i = .load d p w0 w1 w2 w3 ∧
      bs = flagsByte d p :: (bytesBe32 w0 ++ bytesBe32 w1 ++ bytesBe32 w2 ++ bytesBe32 w3) := by
  constructor
  · intro h
    cases bs with
    | nil => cases h
    | cons fl operands =>
      rcases hwords : takeWords4 operands with _ | ⟨w0, w1, w2, w3⟩
      · simp [decodeLoad, hwords] at h
      by_cases hfl : flagsLegal fl = true
      · rw [decodeLoad_of_legal hfl hwords] at h
        cases h
        refine ⟨_, _, w0, w1, w2, w3, rfl, ?_⟩
        simp [flagsByte_of_legal fl hfl, takeWords4_eq_some_iff.mp hwords]
      · simp [decodeLoad, hwords, hfl] at h
  · rintro ⟨d, p, w0, w1, w2, w3, rfl, rfl⟩
    have hwords : takeWords4 (bytesBe32 w0 ++ bytesBe32 w1 ++ bytesBe32 w2 ++ bytesBe32 w3) =
        some (w0, w1, w2, w3) := takeWords4_eq_some_iff.mpr (by simp)
    rw [decodeLoad_of_legal (flagsLegal_flagsByte d p) hwords, flagD_flagsByte, flagP_flagsByte]

theorem decodeBare_eq_ok_iff {j i : Instr} {bs : List Byte} :
    decodeBare j bs = .ok i ↔ i = j ∧ bs = [] := by
  cases bs <;> simp [decodeBare, eq_comm]

theorem decode_encode (i : Instr) : decode (encode i) = .ok i := by
  cases i with
  | init d p seed => exact decodeInit_eq_ok_iff.mpr ⟨d, p, seed, rfl, rfl⟩
  | load d p w0 w1 w2 w3 => exact decodeLoad_eq_ok_iff.mpr ⟨d, p, w0, w1, w2, w3, rfl, rfl⟩
  | step => exact decodeBare_eq_ok_iff.mpr ⟨rfl, rfl⟩
  | read => exact decodeBare_eq_ok_iff.mpr ⟨rfl, rfl⟩

/-- Each opcode's format reads back only what the encoder writes behind that opcode. -/
theorem encode_of_decode {p : Packet} {i : Instr} (h : decode p = .ok i) : encode i = p := by
  cases p with
  | nil => cases h
  | cons op bs =>
    obtain hop | rfl | rfl | rfl | rfl := opcode_cases op
    · rw [decode_unassignedOpcode hop] at h
      cases h
    · obtain ⟨_, _, _, rfl, rfl⟩ := decodeInit_eq_ok_iff.mp h
      rfl
    · obtain ⟨_, _, _, _, _, _, rfl, rfl⟩ := decodeLoad_eq_ok_iff.mp h
      rfl
    · obtain ⟨rfl, rfl⟩ := decodeBare_eq_ok_iff.mp h
      rfl
    · obtain ⟨rfl, rfl⟩ := decodeBare_eq_ok_iff.mp h
      rfl

/-- Settles O7, command by command from what its format reads. -/
theorem decodeOfEncode : Obligations.DecodeOfEncode := fun i _ => decode_encode i

/-- Settles O8: the encoder gives the packet back, so one command has one packet. -/
theorem encodeOfDecode : Obligations.EncodeOfDecode :=
  ⟨fun _ _ => encode_of_decode,
    fun _ _ _ hp hq => (encode_of_decode hp).symm.trans (encode_of_decode hq)⟩

theorem packetLegal_encode (i : Instr) : packetLegal (encode i) = true := by
  cases i with
  | init d p seed => exact Laws.EncodeLegal.init d p seed rfl
  | load d p w0 w1 w2 w3 => exact Laws.EncodeLegal.load d p w0 w1 w2 w3 rfl
  | step => exact Laws.EncodeLegal.step rfl
  | read => exact Laws.EncodeLegal.read rfl

theorem ne_opcodes_of_unassigned {op : Byte} (h : op.toNat = 0 ∨ 5 ≤ op.toNat) :
    op ≠ 0x01#8 ∧ op ≠ 0x02#8 ∧ op ≠ 0x03#8 ∧ op ≠ 0x04#8 := by
  bv_omega

/-- Each reason for which a packet is illegal (R67) fails a row of the table. -/
theorem packetLegal_eq_false_of_error {p : Packet} {why : Illegal} (h : decode p = .error why) :
    packetLegal p = false := by
  cases p with
  | nil => rfl
  | cons op bs =>
    obtain hop | rfl | rfl | rfl | rfl := opcode_cases op
    · obtain ⟨h1, h2, h3, h4⟩ := ne_opcodes_of_unassigned hop
      simp [packetLegal, h1, h2, h3, h4]
    · obtain rfl | ⟨fl, seed, rfl, hfl⟩ := (decodeInit_fails_iff bs).mp ⟨why, h⟩
      · rfl
      · simp [packetLegal, hfl]
    · obtain hlen | ⟨fl, operands, rfl, hfl⟩ := (decodeLoad_fails_iff bs).mp ⟨why, h⟩
      · simp [packetLegal, hlen]
      · simp [packetLegal, hfl]
    · have hbs := (decodeBare_fails_iff .step bs).mp ⟨why, h⟩
      simp [packetLegal, hbs]
    · have hbs := (decodeBare_fails_iff .read bs).mp ⟨why, h⟩
      simp [packetLegal, hbs]

/-- Settles O6: what decodes is an encoding, which the table calls legal, and what does not decode fails
the table. -/
theorem decoderAcceptsTheTable : Obligations.DecoderAcceptsTheTable := by
  intro p
  constructor
  · rintro ⟨i, h⟩
    rw [← encode_of_decode h]
    exact packetLegal_encode i
  · intro hlegal
    rcases h : decode p with why | i
    · cases hlegal.symm.trans (packetLegal_eq_false_of_error h)
    · exact ⟨i, rfl⟩

/-- Settles O3: five closed packets, evaluated. -/
theorem samplePacketsDecode : Obligations.SamplePacketsDecode := ⟨rfl, rfl, rfl, rfl, rfl⟩

end Sys2Proof

/-! PROOFS. The run of the command channel (R172): what a command reads of a state, the block's answer to
any packets as one function of its registers, and from that O41 and O42; what a step keeps and what it
may change, O39, O40 and O34; with O29, O30, O38 and O46. -/

namespace Sys2Proof.Machine

/-! ### What a command reads -/

/-- A command reads the registers only: what it writes to them and what it answers are the same whatever
stands on the channels, and of the channels it writes only that answer (R172). -/
theorem exec_of_registers (i : Instr) (gen : Option GeneratorState) (cfg : Cfg) (seeded : Bool) :
    ∃ gen' cfg' seeded' r, ∀ inbox outbox,
      exec i ⟨gen, cfg, seeded, inbox, outbox⟩ =
        .next ⟨gen', cfg', seeded', inbox, outbox ++ [r]⟩ := by
  cases i with
  | init d p seed => exact ⟨_, _, _, _, fun _ _ => rfl⟩
  | load d p w0 w1 w2 w3 => exact ⟨_, _, _, _, fun _ _ => rfl⟩
  | step =>
    rcases h : State.seededGen ⟨gen, cfg, seeded, [], []⟩ with _ | g
    · exact ⟨_, _, _, _, fun _ _ => execStep_of_unseeded h⟩
    · exact ⟨some (engineRound Config.params cfg g).1, cfg, seeded,
        0x00#8 :: bytesBe32 (engineRound Config.params cfg g).2,
        fun inbox outbox => execStep_of_seeded (s := ⟨gen, cfg, seeded, inbox, outbox⟩) h⟩
  | read =>
    rcases h : State.seededGen ⟨gen, cfg, seeded, [], []⟩ with _ | g
    · exact ⟨_, _, _, _, fun _ _ => execRead_of_unseeded h⟩
    · exact ⟨_, _, _, _, fun _ _ => execRead_of_seeded h⟩

theorem exec_answers (i : Instr) (s : State) : ∃ t, exec i s = .next t :=
  have ⟨_, _, _, _, h⟩ := exec_of_registers i s.gen s.cfg s.seeded
  ⟨_, h s.inbox s.outbox⟩

theorem answerPacket_of_error {p : Packet} {why : Illegal} (hd : decode p = .error why) (s : State) :
    answerPacket s p = respondErr .illegal s := by
  simp only [answerPacket, hd]
  rfl

theorem answerPacket_of_ok {p : Packet} {i : Instr} (hd : decode p = .ok i) {s t : State}
    (hexec : exec i s = .next t) : answerPacket s p = t := by
  simp only [answerPacket, hd, hexec]

theorem answerPacket_of_registers (p : Packet) (gen : Option GeneratorState) (cfg : Cfg)
    (seeded : Bool) :
    ∃ gen' cfg' seeded' r, ∀ inbox outbox,
      answerPacket ⟨gen, cfg, seeded, inbox, outbox⟩ p =
        ⟨gen', cfg', seeded', inbox, outbox ++ [r]⟩ := by
  rcases hd : decode p with why | i
  · exact ⟨_, _, _, _, fun _ _ => answerPacket_of_error hd _⟩
  · obtain ⟨_, _, _, _, h⟩ := exec_of_registers i gen cfg seeded
    exact ⟨_, _, _, _, fun inbox outbox => answerPacket_of_ok hd (h inbox outbox)⟩

/-- The block's answers to any packets, too, are a function of its registers: one for each packet. -/
theorem foldl_answerPacket_of_registers (ps : List Packet) (gen : Option GeneratorState) (cfg : Cfg)
    (seeded : Bool) :
    ∃ gen' cfg' seeded', ∃ rs : List Packet, rs.length = ps.length ∧ ∀ inbox outbox,
      ps.foldl answerPacket ⟨gen, cfg, seeded, inbox, outbox⟩ =
        ⟨gen', cfg', seeded', inbox, outbox ++ rs⟩ := by
  induction ps generalizing gen cfg seeded with
  | nil => exact ⟨gen, cfg, seeded, [], rfl, fun _ _ => by simp⟩
  | cons p ps ih =>
    obtain ⟨gen₁, cfg₁, seeded₁, r, hp⟩ := answerPacket_of_registers p gen cfg seeded
    obtain ⟨gen₂, cfg₂, seeded₂, rs, hlen, hps⟩ := ih gen₁ cfg₁ seeded₁
    exact ⟨gen₂, cfg₂, seeded₂, r :: rs, by simp [hlen], fun _ _ => by simp [hp, hps]⟩

/-! ### O41: the run is the fold -/

/-- The step at a packet is R172's transition on the state with that packet taken. -/
theorem step_packet {s : State} {p : Packet} {rest : List HostEvent}
    (hinbox : s.inbox = .packet p :: rest) :
    step s = .next (answerPacket { s with inbox := rest } p) := by
  rcases hd : decode p with why | i
  · rw [step_illegal hinbox hd, answerPacket_of_error hd]
  · obtain ⟨t, hexec⟩ := exec_answers i { s with inbox := rest }
    rw [step_legal hinbox hd, hexec, answerPacket_of_ok hd hexec]

theorem runSteps_succ {s t : State} (h : step s = .next t) (n : Nat) :
    runSteps (n + 1) s = runSteps n t := by
  simp only [runSteps, h]

/-- The packets behind the one being answered stay where they are, so the next step finds the next one. -/
theorem runSteps_packets (ps : List Packet) (s : State) (rest : List HostEvent)
    (hinbox : s.inbox = ps.map .packet ++ rest) :
    runSteps ps.length s = .next (ps.foldl answerPacket { s with inbox := rest }) := by
  induction ps generalizing s with
  | nil =>
    subst hinbox
    rfl
  | cons p ps ih =>
    obtain ⟨_, _, _, r, hp⟩ := answerPacket_of_registers p s.gen s.cfg s.seeded
    rw [List.length_cons, runSteps_succ (step_packet hinbox), hp, ih _ rfl, List.foldl_cons, hp]

/-- Settles O41: the run by induction on the packets, and the responses by what a fold of answers is. -/
theorem runIsTheFoldOfItsPackets : Obligations.RunIsTheFoldOfItsPackets := by
  intro s ps rest hinbox
  obtain ⟨_, _, _, rs, hlen, hfold⟩ := foldl_answerPacket_of_registers ps s.gen s.cfg s.seeded
  exact ⟨runSteps_packets ps s rest hinbox, rs, hlen, congrArg State.outbox (hfold rest s.outbox)⟩

/-! ### O42: re-seeding -/

/-- After an INIT or LOAD the registers are the same for every block, and so is all that they decide. -/
theorem foldl_answerPacket_reseeded {p : Packet} {i : Instr} (hd : decode p = .ok i)
    (hstep : i ≠ .step) (hread : i ≠ .read) (ps : List Packet) :
    ∃ gen cfg seeded, ∃ rs : List Packet, rs.length = ps.length + 1 ∧ ∀ s : State,
      (p :: ps).foldl answerPacket s = ⟨gen, cfg, seeded, s.inbox, s.outbox ++ rs⟩ := by
  obtain ⟨cfg, g, hexec⟩ := exec_constructs_same hstep hread
  obtain ⟨gen', cfg', seeded', rs, hlen, hps⟩ := foldl_answerPacket_of_registers ps (some g) cfg true
  refine ⟨gen', cfg', seeded', [0x00#8] :: rs, by simp [hlen], fun s => ?_⟩
  rw [List.foldl_cons, answerPacket_of_ok hd (hexec s), hps, List.append_assoc]
  rfl

/-- Settles O42: both runs are folds that begin by writing the same registers. -/
theorem reseedingForgetsThePast : Obligations.ReseedingForgetsThePast := by
  intro s1 s2 p i ps hd hstep hread h1 h2
  obtain ⟨_, _, _, rs, hlen, hfold⟩ := foldl_answerPacket_reseeded hd hstep hread ps
  have hrun (s : State) (h : s.inbox = (p :: ps).map .packet) :=
    (runSteps_packets (p :: ps) s [] (by rw [h, List.append_nil])).trans
      (congrArg Host.Outcome.next (hfold _))
  exact ⟨_, _, rs, hrun s1 h1, hrun s2 h2, rfl, rfl, rfl, rfl, rfl, hlen⟩

/-! ### O39 and O40: the invariant -/

/-- Settles O39, on the one state it speaks of. -/
theorem invariantAtReset : Obligations.InvariantAtReset := by
  unfold Obligations.InvariantAtReset
  decide

theorem responseLegal_ok {payload : List Byte}
    (h : payload.length = 0 ∨ payload.length = 4 ∨ payload.length = 20) :
    responseLegal (0x00#8 :: payload) = true := by
  simpa [responseLegal, or_assoc] using h

theorem forall_responseLegal_append {out : List Packet} (hout : ∀ r ∈ out, responseLegal r = true)
    {r : Packet} (hr : responseLegal r = true) : ∀ r' ∈ out ++ [r], responseLegal r' = true :=
  List.forall_mem_append.mpr ⟨hout, List.forall_mem_singleton.mpr hr⟩

/-- A legal response, with nothing else written, keeps the invariant. -/
theorem inv_respond {s : State} (hinv : s.inv = true) {r : Packet} (hr : responseLegal r = true) :
    (s.respond r).inv = true := by
  obtain ⟨hseeded, hcfg, hout⟩ := (inv_iff s).mp hinv
  exact (inv_iff _).mpr ⟨hseeded, hcfg, forall_responseLegal_append hout hr⟩

theorem inv_setInbox {s : State} (hinv : s.inv = true) (inbox : List HostEvent) :
    State.inv { s with inbox := inbox } = true := hinv

theorem inv_applyReset {s : State} (hinv : s.inv = true) : (applyReset s).inv = true := by
  obtain ⟨-, -, hout⟩ := (inv_iff s).mp hinv
  exact (inv_iff _).mpr ⟨rfl, fun _ => rfl, hout⟩

/-- A seeded block with words meets the invariant in any configuration. -/
theorem inv_of_seeded {s t : State} (hinv : s.inv = true) (hseeded : t.seeded = true)
    (hgen : t.gen.isSome = true) {r : Packet} (hr : responseLegal r = true)
    (hout : t.outbox = s.outbox ++ [r]) : t.inv = true := by
  obtain ⟨-, -, hlegal⟩ := (inv_iff s).mp hinv
  refine (inv_iff t).mpr ⟨hseeded.trans hgen.symm, fun hunseeded => ?_, ?_⟩
  · cases hseeded.symm.trans hunseeded
  · rw [hout]
    exact forall_responseLegal_append hlegal hr

theorem exec_keeps_inv (i : Instr) {s : State} (hinv : s.inv = true) :
    ∃ t, exec i s = .next t ∧ t.inv = true := by
  obtain ⟨cfg, g, -, -, h⟩ | ⟨-, -, h⟩ | ⟨g, -, hg, h⟩ | ⟨g, -, -, h⟩ := exec_cases i s
  · exact ⟨_, h, inv_of_seeded hinv rfl rfl (r := [0x00#8]) rfl rfl⟩
  · exact ⟨_, h, inv_respond hinv rfl⟩
  · obtain ⟨hseeded, -⟩ := seededGen_eq_some.mp hg
    exact ⟨_, h, inv_of_seeded hinv hseeded rfl
      (responseLegal_ok (.inr (.inl (bytesBe32_length _)))) rfl⟩
  · exact ⟨_, h, inv_respond hinv (responseLegal_ok (.inr (.inr rfl)))⟩

/-- Settles O40, for each of the four things a step can be. -/
theorem everyStepKeepsTheInvariant : Obligations.EveryStepKeepsTheInvariant := by
  intro s hinv
  obtain ⟨-, h⟩ | ⟨rest, -, h⟩ | ⟨_, rest, _, -, -, h⟩ | ⟨_, rest, i, -, -, h⟩ := step_cases s
  · exact ⟨s, h, hinv⟩
  · exact ⟨_, h, inv_applyReset (inv_setInbox hinv rest)⟩
  · exact ⟨_, h, inv_respond (inv_setInbox hinv rest) rfl⟩
  · rw [h]
    exact exec_keeps_inv i (inv_setInbox hinv rest)

/-! ### O29, O30 and O38: one step -/

/-- Settles O29: the step's own rule for a packet that decodes. -/
theorem stepRunsTheDecodedCommand : Obligations.StepRunsTheDecodedCommand :=
  fun _ _ _ _ hinbox hd _ => step_legal hinbox hd

/-- Settles O30: the step's own rule for an empty command channel. -/
theorem idleBlockHoldsItsState : Obligations.IdleBlockHoldsItsState := fun _ => step_idle

/-- Settles O38: an asserted reset is alone on the command channel, so the step is that reset. -/
theorem resetAbandonsACommand : Obligations.ResetAbandonsACommand :=
  fun s _ _ _ => step_reset (s := s.assertReset) rfl

/-! ### O34: the list of changes -/

/-- A READ reports; it writes no register, whether the block is seeded or not (R117). -/
theorem exec_read_keeps_registers {s t : State} (h : exec .read s = .next t) :
    t.gen = s.gen ∧ t.cfg = s.cfg ∧ t.seeded = s.seeded := by
  rcases hg : s.seededGen with _ | g
  · obtain rfl := Host.Outcome.next.inj (h.symm.trans (execRead_of_unseeded hg))
    exact ⟨rfl, rfl, rfl⟩
  · obtain rfl := Host.Outcome.next.inj (h.symm.trans (execRead_of_seeded hg))
    exact ⟨rfl, rfl, rfl⟩

/-- A STEP writes the words and the counter at most (R115). -/
theorem exec_step_keeps_cfg_seeded {s t : State} (h : exec .step s = .next t) :
    t.cfg = s.cfg ∧ t.seeded = s.seeded := by
  rcases hg : s.seededGen with _ | g
  · obtain rfl := Host.Outcome.next.inj (h.symm.trans (execStep_of_unseeded hg))
    exact ⟨rfl, rfl⟩
  · obtain rfl := Host.Outcome.next.inj (h.symm.trans (execStep_of_seeded hg))
    exact ⟨rfl, rfl⟩

theorem step_error_keeps_registers {s t : State} {p : Packet} {rest : List HostEvent} {code : Byte}
    (hinbox : s.inbox = .packet p :: rest) (hstep : step s = .next t)
    (hout : t.outbox = s.outbox ++ [[code]]) (hcode : code ≠ 0x00#8) :
    t.gen = s.gen ∧ t.cfg = s.cfg ∧ t.seeded = s.seeded := by
  rw [errorsChangeNothing s t p rest code hinbox hstep hout hcode]
  exact ⟨rfl, rfl, rfl⟩

/-- Settles O34, clause by clause from what the step is at each kind of event. -/
theorem stateChangesOnlyAsListed : Obligations.StateChangesOnlyAsListed := by
  intro s t hstep
  refine ⟨?reset, ?init, ?load, ?step, ?unchanged⟩
  case reset =>
    intro rest hinbox
    obtain rfl := Host.Outcome.next.inj (hstep.symm.trans (step_reset hinbox))
    exact ⟨rfl, rfl, rfl⟩
  case init =>
    intro p rest d q seed hinbox hd
    obtain rfl := Host.Outcome.next.inj (hstep.symm.trans (step_legal hinbox hd))
    exact ⟨rfl, rfl, rfl⟩
  case load =>
    intro p rest d q w0 w1 w2 w3 hinbox hd
    obtain rfl := Host.Outcome.next.inj (hstep.symm.trans (step_legal hinbox hd))
    exact ⟨rfl, rfl, rfl⟩
  case step =>
    intro p rest hinbox hd
    have hkept := exec_step_keeps_cfg_seeded ((step_legal hinbox hd).symm.trans hstep)
    exact hkept
  case unchanged =>
    rintro (hidle | ⟨p, rest, hinbox, hread | ⟨why, hd⟩ | hout | hout⟩)
    · obtain rfl := Host.Outcome.next.inj (hstep.symm.trans (step_idle hidle))
      exact ⟨rfl, rfl, rfl⟩
    · have hkept := exec_read_keeps_registers ((step_legal hinbox hread).symm.trans hstep)
      exact hkept
    · obtain rfl := Host.Outcome.next.inj (hstep.symm.trans (step_illegal hinbox hd))
      exact ⟨rfl, rfl, rfl⟩
    · exact step_error_keeps_registers hinbox hstep hout (by decide)
    · exact step_error_keeps_registers hinbox hstep hout (by decide)

/-! ### O46: several blocks -/

/-- Settles O46, by induction on the list down to the place that steps. -/
theorem instancesShareNothing : Obligations.InstancesShareNothing := by
  intro ss k s t hs hstep
  induction ss generalizing k with
  | nil => cases hs
  | cons s' others ih =>
    cases k with
    | zero =>
      cases hs
      simp only [stepInstance, hstep, List.set_cons_zero]
    | succ k => simp only [stepInstance, ih k hs, List.set_cons_succ]

end Sys2Proof.Machine

/-! PROOFS. The round's own facts (R101 to R106, R111 to R114): parity on the odd branch, O13; the corner
cases, O15; the preimages of the Collatz step, O16; the next pre-mix, O17; and the counter, O18. -/

namespace Sys2Proof.Machine

open Claims

/-! ### O13: the odd branch -/

/-- Three times a word plus one has the other parity. -/
theorem mul3p1_getLsbD_zero (a : Word) :
    (mul3p1 Config.params a).getLsbD 0 = !a.getLsbD 0 := by
  have hmul := getLsbD_zero_iff_odd (mul3p1 Config.params a)
  have ha := getLsbD_zero_iff_odd a
  rw [mul3p1_toNat] at hmul
  rw [Bool.eq_iff_iff, Bool.not_eq_true', ← Bool.not_eq_true, hmul, ha]
  omega

theorem xor_xorConst_getLsbD_zero (a : Word) :
    (a ^^^ Config.params.xorConst).getLsbD 0 = !a.getLsbD 0 := by
  have hconst : Config.params.xorConst.getLsbD 0 = true := by decide
  rw [BitVec.getLsbD_xor, hconst, Bool.xor_true]

theorem collatz_odd_of_odd {x : Word} (hx : x.getLsbD 0 = true) :
    (collatz Config.params x).getLsbD 0 = true := by
  rw [collatz_of_odd _ hx, xor_xorConst_getLsbD_zero, mul3p1_getLsbD_zero, hx]
  rfl

/-- Settles O13: `mul3p1` and the XOR each change the parity. -/
theorem oddBranchStaysOdd : Obligations.OddBranchStaysOdd := fun mixed hodd =>
  ⟨by rw [mul3p1_getLsbD_zero, hodd]; rfl, collatz_odd_of_odd hodd⟩

/-! ### O18: the counter -/

/-- Settles O18: `n` rounds add `n` to the counter, which is 32 bits wide. -/
theorem counterCountsRounds : Obligations.CounterCountsRounds := by
  intro cfg g n
  have hc : (iterRound Config.params cfg n g).c.toNat = (g.c.toNat + n) % 2 ^ 32 := by
    rw [iterRound_c, BitVec.toNat_add, BitVec.toNat_ofNat, Nat.add_mod_mod]
  refine ⟨hc, ?_⟩
  have hlt := g.c.isLt
  rw [← BitVec.toNat_inj, hc]
  omega

/-- The counter alone tells a state from its successor (R104). -/
theorem engineRound_ne (P : Params) (cfg : Cfg) (g : GeneratorState) : (engineRound P cfg g).1 ≠ g := by
  intro h
  have hc : g.c + 1#32 = g.c := congrArg GeneratorState.c h
  exact absurd hc (by bv_omega)

/-! ### O15: the corner cases -/

/-- At amount 31 every bit moves one place down, and bit 0 comes back in at the top. -/
theorem rotl32_31_getLsbD (a : Word) :
    (rotl32 a 31).getLsbD 31 = a.getLsbD 0 ∧
      ∀ i, i < 31 → (rotl32 a 31).getLsbD i = a.getLsbD (i + 1) := by
  refine ⟨rotl32_getLsbD_rotated a (r := 31) (i := 0) (by omega) (by omega), fun i hi => ?_⟩
  have hpos : (i + 1 + 31) % 32 = i := by omega
  have hbit := rotl32_getLsbD_rotated a (r := 31) (i := i + 1) (by omega) (by omega)
  rwa [hpos] at hbit

theorem nextCounter_of_max {g : GeneratorState} (hc : g.c = 0xFFFFFFFF#32) : nextCounter g = 0#32 := by
  rw [nextCounter, hc]
  rfl

theorem premix_canonical_of_eq {g : GeneratorState} (h : g.s0 = g.s2) : premix canonical g = 0#32 := by
  have hmix : premix canonical g = g.s0 ^^^ g.s2 := rfl
  rw [hmix, h, BitVec.xor_self]

/-- Settles O15: five values of the Collatz step, the rotation at its two ends, the counter at its
last value, equal `s0` and `s2`, the all-zero state, and the counter for the last. -/
theorem roundCornerCases : Obligations.RoundCornerCases := by
  refine ⟨by decide, by decide, by decide, by decide, by decide, fun g t hzero => ?_,
    rotl32_31_getLsbD, fun g hc => ⟨nextCounter_of_max hc, fun t => ?_⟩,
    fun g => premix_canonical_of_eq, by decide, engineRound_ne Config.params⟩
  · rw [rotAmount_eq, hzero, rotl32_zero]
  · rw [nextCounter_of_max hc, add32, BitVec.add_zero]

/-! ### O16: preimages of the Collatz step -/

/-- The even word that the Collatz step halves to `t`, where there is one. -/
def evenPreimage (t : Word) : Word := t + t

/-- The word that `mul3p1` and the XOR take to `t`: `0xAAAAAAAB` is the inverse of 3 modulo 2^32. -/
def oddPreimage (t : Word) : Word := 0xAAAAAAAB#32 * ((t ^^^ Config.params.xorConst) - 1#32)

theorem mul3p1_eq_iff (x y : Word) :
    mul3p1 Config.params x = y ↔ x = 0xAAAAAAAB#32 * (y - 1#32) := by
  have hinv : 0xAAAAAAAB#32 * 3#32 = 1#32 := by decide
  have hmul : mul3p1 Config.params x = 3#32 * x + 1#32 := by
    apply BitVec.eq_of_toNat_eq
    simp [mul3p1_toNat, BitVec.toNat_add, BitVec.toNat_mul]
  rw [hmul]
  constructor
  · rintro rfl
    rw [BitVec.add_sub_cancel, ← BitVec.mul_assoc, hinv, BitVec.one_mul]
  · rintro rfl
    rw [← BitVec.mul_assoc, BitVec.mul_comm 3#32, hinv, BitVec.one_mul, BitVec.sub_add_cancel]

theorem collatz_eq_iff_of_odd {x : Word} (hx : x.getLsbD 0 = true) (t : Word) :
    collatz Config.params x = t ↔ x = oddPreimage t := by
  rw [collatz_of_odd _ hx, xor_eq_iff_left_eq, mul3p1_eq_iff, oddPreimage]

theorem oddPreimage_odd {t : Word} (ht : t.getLsbD 0 = true) : (oddPreimage t).getLsbD 0 = true := by
  have hmul : mul3p1 Config.params (oddPreimage t) = t ^^^ Config.params.xorConst :=
    (mul3p1_eq_iff _ _).mpr rfl
  have hbit := mul3p1_getLsbD_zero (oddPreimage t)
  rw [hmul, xor_xorConst_getLsbD_zero, ht] at hbit
  exact (Bool.not_inj hbit).symm

theorem collatz_toNat_of_even {x : Word} (hx : x.getLsbD 0 = false) :
    (collatz Config.params x).toNat = x.toNat / 2 := by
  rw [collatz_oddOnly_of_even hx, shr1_toNat]

theorem toNat_even_of_getLsbD {x : Word} (hx : x.getLsbD 0 = false) : x.toNat % 2 = 0 := by
  have hbit := getLsbD_zero_iff_odd x
  rw [hx] at hbit
  simpa using hbit

theorem evenPreimage_toNat {t : Word} (ht : t.toNat < 2 ^ 31) :
    (evenPreimage t).toNat = 2 * t.toNat := by
  rw [evenPreimage, BitVec.toNat_add]
  omega

theorem evenPreimage_even {t : Word} (ht : t.toNat < 2 ^ 31) :
    (evenPreimage t).getLsbD 0 = false := by
  rw [← Bool.not_eq_true, getLsbD_zero_iff_odd, evenPreimage_toNat ht]
  omega

theorem collatz_eq_iff_of_even {x : Word} (hx : x.getLsbD 0 = false) {t : Word}
    (ht : t.toNat < 2 ^ 31) : collatz Config.params x = t ↔ x = evenPreimage t := by
  have heven := toNat_even_of_getLsbD hx
  rw [← BitVec.toNat_inj, ← BitVec.toNat_inj, collatz_toNat_of_even hx, evenPreimage_toNat ht]
  omega

/-- An odd word below 2^31 is reached from either branch, once from each. -/
theorem collatz_eq_iff_of_odd_target {t : Word} (hodd : t.getLsbD 0 = true) (ht : t.toNat < 2 ^ 31)
    (x : Word) : collatz Config.params x = t ↔ x = evenPreimage t ∨ x = oddPreimage t := by
  cases hx : x.getLsbD 0 with
  | false =>
    have hne : x ≠ oddPreimage t := by
      rintro rfl
      cases hx.symm.trans (oddPreimage_odd hodd)
    rw [collatz_eq_iff_of_even hx ht, or_iff_left hne]
  | true =>
    have hne : x ≠ evenPreimage t := by
      rintro rfl
      cases hx.symm.trans (evenPreimage_even ht)
    rw [collatz_eq_iff_of_odd hx, or_iff_right hne]

theorem evenPreimage_ne_oddPreimage {t : Word} (hodd : t.getLsbD 0 = true) (ht : t.toNat < 2 ^ 31) :
    evenPreimage t ≠ oddPreimage t := by
  intro h
  have hbit := oddPreimage_odd hodd
  rw [← h, evenPreimage_even ht] at hbit
  cases hbit

/-- The odd branch gives odd words and the even branch words below 2^31 (R102). -/
theorem collatz_ne_of_even_large {t : Word} (heven : t.getLsbD 0 = false) (ht : 2 ^ 31 ≤ t.toNat)
    (x : Word) : collatz Config.params x ≠ t := by
  rintro rfl
  cases hx : x.getLsbD 0 with
  | false =>
    rw [collatz_toNat_of_even hx] at ht
    have hlt := x.isLt
    omega
  | true => cases heven.symm.trans (collatz_odd_of_odd hx)

/-- Settles O16, from the preimages of each branch; the two colliding states are evaluated. -/
theorem roundIsNotInjective : Obligations.RoundIsNotInjective := by
  refine ⟨fun t hodd ht => ?_, fun t => collatz_ne_of_even_large, fun t ht => ?_, fun t hodd => ?_,
    by decide⟩
  · exact ⟨_, _, evenPreimage_ne_oddPreimage hodd ht, collatz_eq_iff_of_odd_target hodd ht⟩
  · have heven := evenPreimage_even ht
    exact ⟨_, heven, (collatz_eq_iff_of_even heven ht).mpr rfl⟩
  · have hpre := oddPreimage_odd hodd
    exact ⟨_, hpre, (collatz_eq_iff_of_odd hpre t).mpr rfl,
      fun y hy => (collatz_eq_iff_of_odd hy t).mp⟩

/-! ### O17: the next pre-mix -/

/-- Settles O17: step 6 puts `s3` into `s2`, so where step 1 and step 6 both XOR with it, it cancels. -/
theorem nextPremixIsAnOldWord : Obligations.NextPremixIsAnOldWord := by
  rintro ⟨d, p⟩ g
  cases d <;> cases p
  · exact xor_cancel_right g.s1 g.s3
  all_goals rfl

end Sys2Proof.Machine

/-! PROOFS. The cancellation of R114, and O44: two generators that a configuration and its opposite cannot
tell apart, step by step. -/

namespace Sys2Proof.Machine

/-- What the rounds read of a generator: its pre-mix, and every word but `s0`. Two generators under two
configurations agree in it. -/
def SameRoundInputs (f f' : Cfg) (g h : GeneratorState) : Prop :=
  premix f g = premix f' h ∧ g.s1 = h.s1 ∧ g.s2 = h.s2 ∧ g.s3 = h.s3 ∧ g.c = h.c

theorem engineRound_output_congr {f f' : Cfg} {g h : GeneratorState}
    (hagree : SameRoundInputs f f' g h) (P : Params) :
    (engineRound P f g).2 = (engineRound P f' h).2 := by
  obtain ⟨hmix, h1, h2, h3, hc⟩ := hagree
  have hrot : rotAmount P g = rotAmount P h := by rw [rotAmount, rotAmount, h1]
  rw [engineRound_output, engineRound_output, hmix, hrot, h2, h3, hc]

/-- R114: the next pre-mix depends on whether the two options are equal, and not on which they are. -/
theorem engineRound_agree {f f' : Cfg} (hcfg : f.d = f.p ↔ f'.d = f'.p) {g h : GeneratorState}
    (hagree : SameRoundInputs f f' g h) :
    SameRoundInputs f f' (engineRound Config.params f g).1 (engineRound Config.params f' h).1 := by
  have hout := engineRound_output_congr hagree Config.params
  obtain ⟨-, h1, h2, h3, hc⟩ := hagree
  refine ⟨?_, h2, h3, hout, congrArg (· + 1#32) hc⟩
  rw [nextPremixIsAnOldWord, nextPremixIsAnOldWord, h1, h3]
  simp only [hcfg]

theorem iterRound_agree {f f' : Cfg} (hcfg : f.d = f.p ↔ f'.d = f'.p) {g h : GeneratorState}
    (hagree : SameRoundInputs f f' g h) (n : Nat) :
    SameRoundInputs f f' (iterRound Config.params f n g) (iterRound Config.params f' n h) := by
  induction n with
  | zero => exact hagree
  | succ n ih =>
    rw [iterRound_succ, iterRound_succ]
    exact engineRound_agree hcfg ih

theorem stepResponse_congr {f f' : Cfg} (hcfg : f.d = f.p ↔ f'.d = f'.p) {g h : GeneratorState}
    (hagree : SameRoundInputs f f' g h) (k : Nat) : stepResponse f g k = stepResponse f' h k := by
  rw [stepResponse, stepResponse, engineRound_output_congr (iterRound_agree hcfg hagree k)]

/-- With `w2 = 0` the first pre-mix is `w0` in every configuration. -/
theorem premix_of_s2_zero (cfg : Cfg) {g : GeneratorState} (h : g.s2 = 0#32) : premix cfg g = g.s0 := by
  rw [premix, h, BitVec.xor_zero, ite_self]

theorem loadedGenerator_agree (f f' : Cfg) (w0 w1 w3 : Word) :
    SameRoundInputs f f' (loadedGenerator Config.params w0 w1 0#32 w3)
      (loadedGenerator Config.params w0 w1 0#32 w3) :=
  ⟨(premix_of_s2_zero f rfl).trans (premix_of_s2_zero f' rfl).symm, rfl, rfl, rfl, rfl⟩

/-- Settles O44: the loaded generators agree in what the rounds read, so their warm-ups and their STEPs do. -/
theorem oppositeConfigurationsAgree : Obligations.OppositeConfigurationsAgree := by
  intro s d p w0 w1 w3 n
  have hcfg : (cfgOfFlags d p).d = (cfgOfFlags d p).p ↔
      (cfgOfFlags (!d) (!p)).d = (cfgOfFlags (!d) (!p)).p := Bool.not_inj_iff.symm
  have hloaded := loadedGenerator_agree (cfgOfFlags d p) (cfgOfFlags (!d) (!p)) w0 w1 w3
  obtain ⟨-, h1, h2, h3, hc⟩ := iterRound_agree hcfg hloaded (128 + n)
  refine ⟨_, _, _, _, runInstrs_load_replicate_step d p w0 w1 0#32 w3 n s,
    runInstrs_load_replicate_step (!d) (!p) w0 w1 0#32 w3 n s, rfl, rfl, h1, h2, h3, hc, ?_⟩
  simp only [stepResponse_congr hcfg hloaded]

end Sys2Proof.Machine

/-! PROOFS. What the commands do to a block (R86, R115, R117): O19 and O20 for a seeded block, O23 and
O24 for INIT, and O25 and O26 on what STEP and READ leave. -/

namespace Sys2Proof.Machine

/-- Settles O19: a STEP's equation, and its round as numbers. -/
theorem stepAdvancesOneRound : Obligations.StepAdvancesOneRound := fun s g hseeded hgen =>
  ⟨(engineRound Config.params s.cfg g).1, execStep_of_seeded (seededGen_eq_some.mpr ⟨hseeded, hgen⟩),
    nums_engineRound s.cfg g⟩

/-- Settles O20: a READ's equation. -/
theorem readReturnsTheState : Obligations.ReadReturnsTheState := fun _ _ hseeded hgen =>
  execRead_of_seeded (seededGen_eq_some.mpr ⟨hseeded, hgen⟩)

/-- Settles O23: the generator is the warm-up of the split of the seed's digest. -/
theorem initRunsTheKeySchedule : Obligations.InitRunsTheKeySchedule := fun d p seed =>
  ⟨warmedUp Config.params (cfgOfFlags d p) (seedWords seed), nums_warmedUp .., fun _ => rfl⟩

/-- Settles O24, for each seed whose digest splits into the words. -/
theorem initIsLoadOfTheDigest : Obligations.InitIsLoadOfTheDigest :=
  fun d p _ _ _ _ _ hsplit => exec_init_of_splitDigest d p hsplit

/-- READ's response behind its status byte: `s3` stands in bytes 13 to 16 (R118). -/
theorem readResponse_s3 (g : GeneratorState) :
    ((0x00#8 :: generatorBytes g).drop 13).take 4 = bytesBe32 g.s3 := rfl

/-- Settles O25: the READ finds the generator that the STEP has written. -/
theorem lastOutputStaysInS3 : Obligations.LastOutputStaysInS3 := by
  intro s g hseeded hgen
  have hstep := execStep_of_seeded (seededGen_eq_some.mpr ⟨hseeded, hgen⟩)
  have hread := execRead_of_seeded (seededGen_respondOk_setGen hseeded
    (bytesBe32 (engineRound Config.params s.cfg g).2) (engineRound Config.params s.cfg g).1)
  exact ⟨_, _, _, _, _, hstep, rfl, rfl, rfl, hread, rfl, readResponse_s3 _⟩

/-- READ's response is decided by the registers, which it leaves as they are, so a second READ repeats
it. -/
theorem exec_read_twice (s : State) :
    ∃ r, exec .read s = .next (s.respond r) ∧
      exec .read (s.respond r) = .next ((s.respond r).respond r) := by
  rcases h : s.seededGen with _ | g
  · exact ⟨_, execRead_of_unseeded h, execRead_of_unseeded (s := s.respond _) h⟩
  · exact ⟨_, execRead_of_seeded h, execRead_of_seeded (s := s.respond _) h⟩

/-- Settles O26: READ twice, and a STEP whose round moves the counter. -/
theorem readIsIdempotentStepIsNot : Obligations.ReadIsIdempotentStepIsNot := by
  constructor
  · intro s
    obtain ⟨r, hfirst, hsecond⟩ := exec_read_twice s
    exact ⟨_, _, r, hfirst, rfl, rfl, rfl, rfl, hsecond, rfl⟩
  · intro s hseeded hsome
    obtain ⟨g, hgen⟩ := Option.isSome_iff_exists.mp hsome
    refine ⟨_, execStep_of_seeded (seededGen_eq_some.mpr ⟨hseeded, hgen⟩), fun h => ?_⟩
    exact engineRound_ne Config.params s.cfg g (Option.some.inj (h.trans hgen))

end Sys2Proof.Machine

/-! PROOFS. The assembler reads what the printer writes (R71, R72): hex digits, bytes, words, seeds and
qualifiers, each read back from its printed form, and then the four lines, O10; and O9. -/

namespace Sys2Proof

/-! ### Hex digits, words and seeds -/

theorem hexValue_hexChar : ∀ n < 16, hexValue (hexChar n) = some n := by decide

/-- No hex digit ends a seed. -/
theorem hexChar_ne_apostrophe : ∀ n < 16, (hexChar n).toNat ≠ 0x27 := by decide

theorem byte_div_lt (b : Byte) : b.toNat / 16 < 16 := by
  have := b.isLt
  omega

theorem byte_mod_lt (b : Byte) : b.toNat % 16 < 16 := Nat.mod_lt _ (by decide)

theorem hexDigits_showByte (n acc : Nat) (b : Byte) (rest : List Char) :
    hexDigits (n + 2) acc (showByte b ++ rest) = hexDigits n (256 * acc + b.toNat) rest := by
  have hval : 16 * (16 * acc + b.toNat / 16) + b.toNat % 16 = 256 * acc + b.toNat := by omega
  simp only [showByte, List.cons_append, List.nil_append, hexDigits,
    hexValue_hexChar _ (byte_div_lt b), hexValue_hexChar _ (byte_mod_lt b), hval]

/-- Eight digits are the four bytes of a word, most significant first. -/
theorem hexDigits_showBytes (b0 b1 b2 b3 : Byte) (rest : List Char) :
    hexDigits 8 0 ([b0, b1, b2, b3].flatMap showByte ++ rest) =
      some ((be32 b0 b1 b2 b3).toNat, rest) := by
  have hval : 256 * (256 * (256 * (256 * 0 + b0.toNat) + b1.toNat) + b2.toNat) + b3.toNat =
      (be32 b0 b1 b2 b3).toNat := by
    rw [be32_toNat]
    omega
  simp only [List.flatMap_cons, List.flatMap_nil, List.append_assoc, hexDigits_showByte, hval]
  rfl

theorem wordOperand_showWord (w : Word) (rest : List Char) :
    wordOperand (showWord w ++ rest) = some (w, rest) := by
  have hname : afterWord ['0', 'x'] (skipBlanks (showWord w ++ rest)) =
      some ((bytesBe32 w).flatMap showByte ++ rest) := rfl
  have hdigits : hexDigits 8 0 ((bytesBe32 w).flatMap showByte ++ rest) = some (w.toNat, rest) := by
    rw [bytesBe32, hexDigits_showBytes, be32_of_bytes]
  simp only [wordOperand, hname, hdigits, BitVec.ofNat_toNat, BitVec.setWidth_eq]

theorem wordOperand_blank (cs : List Char) : wordOperand (' ' :: cs) = wordOperand cs := rfl

theorem commaWord_comma (cs : List Char) : commaWord (',' :: ' ' :: cs) = wordOperand cs := rfl

theorem hexSeed_showByte (b : Byte) (cs : List Char) :
    hexSeed (showByte b ++ cs) = (hexSeed cs).map fun (seed, rest) => (b :: seed, rest) := by
  have hval : 16 * (b.toNat / 16) + b.toNat % 16 = b.toNat := Nat.div_add_mod ..
  simp only [showByte, List.cons_append, List.nil_append, hexSeed,
    if_neg (hexChar_ne_apostrophe _ (byte_div_lt b)), hexValue_hexChar _ (byte_div_lt b),
    hexValue_hexChar _ (byte_mod_lt b), hval, BitVec.ofNat_toNat, BitVec.setWidth_eq]
  cases hexSeed cs <;> rfl

theorem hexSeed_showSeed (seed : List Byte) :
    hexSeed (seed.flatMap showByte ++ [Char.ofNat 0x27]) = some (seed, []) := by
  induction seed with
  | nil => rfl
  | cons b seed ih =>
    rw [List.flatMap_cons, List.append_assoc, hexSeed_showByte, ih]
    rfl

theorem seedOperand_hex (cs : List Char) :
    seedOperand (' ' :: 'h' :: Char.ofNat 0x27 :: cs) = hexSeed cs := rfl

/-! ### Qualifiers and lines -/

theorem qualifier_d_showQuals (d p : Bool) (cs : List Char) :
    qualifier 'd' (showQuals d p ++ ' ' :: cs) = (d, showQuals false p ++ ' ' :: cs) := by
  cases d <;> cases p <;> rfl

theorem qualifier_p_showQuals (p : Bool) (cs : List Char) :
    qualifier 'p' (showQuals false p ++ ' ' :: cs) = (p, ' ' :: cs) := by
  cases p <;> rfl

theorem lineInit_showQuals (d p : Bool) {cs : List Char} {seed : List Byte}
    (h : seedOperand (' ' :: cs) = some (seed, [])) :
    lineInit (showQuals d p ++ ' ' :: cs) = some [.init d p seed] := by
  simp only [lineInit, qualifier_d_showQuals, qualifier_p_showQuals, h]
  rfl

theorem lineLoad_showQuals (d p : Bool) {cs r0 r1 r2 : List Char} {w0 w1 w2 w3 : Word}
    (h0 : wordOperand cs = some (w0, r0)) (h1 : commaWord r0 = some (w1, r1))
    (h2 : commaWord r1 = some (w2, r2)) (h3 : commaWord r2 = some (w3, [])) :
    lineLoad (showQuals d p ++ ' ' :: cs) = some [.load d p w0 w1 w2 w3] := by
  simp only [lineLoad, qualifier_d_showQuals, qualifier_p_showQuals, wordOperand_blank, h0, h1, h2, h3]
  rfl

theorem assembleLine_initName (cs : List Char) :
    assembleLine (['I', 'N', 'I', 'T'] ++ cs) = lineInit cs := rfl

theorem assembleLine_loadName (cs : List Char) :
    assembleLine (['L', 'O', 'A', 'D'] ++ cs) = lineLoad cs := rfl

theorem commaWord_showWord (w : Word) (rest : List Char) :
    commaWord ([',', ' '] ++ (showWord w ++ rest)) = some (w, rest) :=
  (commaWord_comma _).trans (wordOperand_showWord w rest)

theorem assembleLine_showInit (d p : Bool) (seed : List Byte) :
    assembleLine (showInstr (.init d p seed)) = some [.init d p seed] := by
  have hline := lineInit_showQuals d p ((seedOperand_hex _).trans (hexSeed_showSeed seed))
  rw [← hline, ← assembleLine_initName]
  simp only [showInstr, List.append_assoc, List.cons_append, List.nil_append]

theorem assembleLine_showLoad (d p : Bool) (w0 w1 w2 w3 : Word) :
    assembleLine (showInstr (.load d p w0 w1 w2 w3)) = some [.load d p w0 w1 w2 w3] := by
  have hline := lineLoad_showQuals d p (wordOperand_showWord w0 _) (commaWord_showWord w1 _)
    (commaWord_showWord w2 _) (commaWord_showWord w3 [])
  rw [← hline, ← assembleLine_loadName]
  simp only [showInstr, List.append_assoc, List.cons_append, List.nil_append, List.append_nil]

theorem assembleLine_showInstr (i : Instr) : assembleLine (showInstr i) = some [i] := by
  cases i with
  | init d p seed => exact assembleLine_showInit d p seed
  | load d p w0 w1 w2 w3 => exact assembleLine_showLoad d p w0 w1 w2 w3
  | step => rfl
  | read => rfl

/-- Settles O10: a printed line is read back, and the packets of a line are its commands' encodings. -/
theorem printedLinesAssemble : Obligations.PrintedLinesAssemble := by
  intro i
  have hline := assembleLine_showInstr i
  refine ⟨hline, ?_⟩
  rw [assemblePackets, hline]
  rfl

/-- Settles O9, one equation for each pseudo-command. -/
theorem pseudoInstructionsExpand : Obligations.PseudoInstructionsExpand :=
  ⟨fun _ => rfl, fun _ => ⟨List.length_replicate, fun _ hi => List.eq_of_mem_replicate hi⟩,
    fun _ => rfl⟩

end Sys2Proof
